-- ==== Sys2Proof/Word.lean ====
section
/-! DEFINITION. Words, numbered things and named values of the FX-340 that commands and state share.

A number the manual only counts or compares (a row, a column, a quality, a stamp) is a `Nat`; a thing of
which the part has a fixed count (a source, a frame slot) is a `Fin`; bytes on a link, a port or in picture
memory are bit vectors. -/

namespace Sys2Proof

/-- One byte on a line link, on a client port or in picture memory. -/
abbrev Byte := BitVec 8

/-- A 16-bit check word (R22, R115, chapter 11). -/
abbrev CheckWord := BitVec 16

/-- S0 to S2; link LLn feeds source Sn (chapter 2). -/
abbrev SourceId := Fin 3
/-- Client n sits on port CPn (chapter 11). -/
abbrev ClientId := Fin 3
/-- E0 to E63 (R3). -/
abbrev EntryId := Fin 64
/-- F0 to F23 (R75). -/
abbrev FrameId := Fin 24
/-- V0 to V3 (R88). -/
abbrev ViewId := Fin 4
/-- M0 to M7 (R97). -/
abbrev GroupId := Fin 8
/-- C0 to C5; port CPn owns C2n and C2n+1 (R139). -/
abbrev CursorId := Fin 6
/-- A row of the shadow pool, 0 to 511 (R93). -/
abbrev PoolRow := Fin 512

/-- The width class of a chart (R3; widths in R31). -/
inductive DrumClass where
  | narrow | standard | wide
deriving DecidableEq, Repr

/-- 60, 120 or 240 lines per minute (R3). -/
inductive LineRate where
  | lpm60 | lpm120 | lpm240
deriving DecidableEq, Repr

/-- Whether a chart's first line is its top row or its bottom row (R54). -/
inductive Direction where
  | down | up
deriving DecidableEq, Repr

/-- The weekday of the day clock (R1). -/
inductive Weekday where
  | monday | tuesday | wednesday | thursday | friday | saturday | sunday
deriving DecidableEq, Repr

/-- Which test a record with a failed check failed (R23, R128 kind 2). -/
inductive CheckCause where
  | checkWord | form
deriving DecidableEq, Repr

/-- The two refusals the port gives a frame before its class is tested (R176). -/
inductive FrameRefusal where
  | check | badRequest
deriving DecidableEq, Repr

/-- The kind of a RESERVE target (R157, R180). -/
inductive TargetKind where
  | entry | frame | group
deriving DecidableEq, Repr

/-- The kind of an attachment or READ_MAP target (R139, R151, R180). -/
inductive AttachKind where
  | current | previous | group
deriving DecidableEq, Repr

/-- The holder a row read sits in: one for each cursor and one for the seam engine (R122). -/
inductive ReadHolder where
  | cursor (c : CursorId)
  | seam
deriving DecidableEq, Repr

/-- A SOURCE_CONFIG body (R181 code 4): a field is present when its bit of the fields-given byte is set. -/
structure SourceConfigArgs where
  source        : Nat
  phasingCount  : Option Nat
  skewLimit     : Option Nat
  trackWindow   : Option Nat
  missedLimit   : Option Nat
  fadeLimit     : Option Nat
  adHoc         : Option Nat
  clearCounters : Bool
deriving DecidableEq, Repr

/-- A STORE_CONFIG body (R181 code 5). -/
structure StoreConfigArgs where
  firmThreshold    : Option Nat
  replaceMargin    : Option Nat
  settleTime       : Option Nat
  completePerMille : Option Nat
  seamAcceptLimit  : Option Nat
deriving DecidableEq, Repr

/-- The data of a SCHEDULE_WRITE commit as its body carries it (R181 code 13): one number a field, whether or
not it lies in the field's range; four frequencies, of which the count says how many are meant. -/
structure EntryArgs where
  state          : Nat
  station        : Nat
  product        : Nat
  startMinute    : Nat
  tolerance      : Nat
  frequencyCount : Nat
  frequencies    : List Nat
  drum           : Nat
  rate           : Nat
  direction      : Nat
  rows           : Nat
  days           : Byte
  repeatOf       : Nat
  dayShift       : Nat
deriving DecidableEq, Repr

/-- A CURSOR_OPEN body (R181 code 16); `cursor` is cursor 0 or 1 of the port. -/
structure CursorOpenArgs where
  cursor   : Fin 2
  kind     : AttachKind
  number   : Nat
  window   : Option (Nat × Nat)
  position : Option Nat
  step     : Option Int
  follow   : Bool
  retain   : Bool
deriving DecidableEq, Repr

/-- A CURSOR_SET body (R181 code 17); `hints` is FOLLOW and RETAIN. -/
structure CursorSetArgs where
  cursor     : Fin 2
  attachment : Option (AttachKind × Nat)
  window     : Option (Nat × Nat)
  position   : Option Nat
  step       : Option Int
  hints      : Option (Bool × Bool)
deriving DecidableEq, Repr

end Sys2Proof
end

