-- ==== Sys2Proof/Config.lean ====
section
/-! DEFINITION. What an implementation fixes and the manual does not: the free values (no body, so that no
proof can see them) and the choices of layout inside a picture-memory record, each with its log entry. -/

namespace Sys2Proof.Config

/-- FREE VALUE (log 5). The content of a byte of picture memory that nothing has written since the given
power-on: R114 and R126 say that it is undefined. Applied to the number of the power-on and the address. -/
opaque powerOnByte : Nat → Nat → Byte

/-- FREE VALUE (log 6). The busy tag remembered for a frame shorter than two bytes, which carries no tag:
R175 has the port remember a tag and does not say which. Applied to a counter, so each such frame has its own. -/
opaque tagOfTaglessFrame : Nat → Nat

/-- FREE VALUE (log 7). Whether a yes-or-no byte that is neither 0 nor 1 counts as yes: R180 codes yes as 1 and
no as 0 and says nothing of the rest. Applied to the byte's value. -/
opaque yesOfOtherByte : Nat → Bool

/-- DESIGN CHOICE (log 8). The byte that stands for the pool marker of R115. -/
def poolMarker : Byte := 255#8

end Sys2Proof.Config
end

