-- ==== Sys2Proof/Syntax.lean ====
section
/-! DEFINITION. The commands of the FX-340: one constructor for each row of spec/opcode_table.json, in the
table's order. A command is a record on a line link, an expiry of a timer, a report of the memory, a step of
the placement engine, the arbiter or the seam engine, or a frame on a client port. The operands are the
fields its rule names; a client command carries its port and its tag first. A field a body carries as a number
stays a number, in or out of range, since the owning block tests the ranges (R181). -/

namespace Sys2Proof

inductive Instr where
  /-- The reset pin is released; the operands are the levels of strap groups CFG0 to CFG2 (R175, R177). -/
  | reset (cfg0 cfg1 cfg2 : Byte)
  | portStartupDone
  | clockSecond
  | start (src : SourceId) (frequency : Nat) (drum : DrumClass) (rate : LineRate)
  | phase (src : SourceId) (sequence pulse : Nat)
  /-- `payload` is the line's pixels, two to a byte, the even column in the upper four bits (section 2.1). -/
  | image (src : SourceId) (sequence skew quality : Nat) (payload : List Byte)
  | stop (src : SourceId)
  | drop (src : SourceId)
  | resume (src : SourceId)
  | idle (src : SourceId)
  | failedCheckRecord (src : SourceId) (cause : CheckCause)
  | linkSilenceExpiry (src : SourceId)
  | linePeriodExpiry (src : SourceId)
  | fadeExpiry (src : SourceId)
  | headTake
  | settleExpiry (frame : FrameId)
  | arbiterGrant
  /-- `issued` names an operation by its number in the order of issue (R116's time of issue; log 9). -/
  | writeConfirmed (issued : Nat)
  | writeFailed (issued : Nat)
  | copyConfirmed (issued : Nat)
  | copyFailed (issued : Nat)
  | copyReadCorrupt (issued : Nat)
  | confirmationTimeout (issued : Nat)
  /-- `carriedOut` says whether memory carried the operation out after all (R120). -/
  | lateReport (issued : Nat) (carriedOut : Bool)
  /-- `returned` is the record that came back where it is not the one memory holds (log 10). -/
  | readData (holder : ReadHolder) (returned : Option (List Byte))
  | readTimeout (holder : ReadHolder)
  | seamJobTake
  /-- `tag` is absent for a frame shorter than two bytes. -/
  | requestWhileBusy (port : ClientId) (tag : Option Nat)
  | requestRefused (port : ClientId) (tag : Option Nat) (refusal : FrameRefusal)
  | responseRead (port : ClientId)
  | getInfo (port : ClientId) (tag : Nat)
  | setClock (port : ClientId) (tag : Nat) (second day weekday : Nat)
  | getClock (port : ClientId) (tag : Nat)
  | sourceConfig (port : ClientId) (tag : Nat) (args : SourceConfigArgs)
  | storeConfig (port : ClientId) (tag : Nat) (args : StoreConfigArgs)
  | sourceStatus (port : ClientId) (tag : Nat) (source : Nat)
  | frameList (port : ClientId) (tag : Nat)
  | frameInfo (port : ClientId) (tag : Nat) (slot : Nat)
  | scheduleRead (port : ClientId) (tag : Nat) (entry : Nat)
  | mosaicInfo (port : ClientId) (tag : Nat) (group : Nat)
  | prepare (port : ClientId) (tag : Nat) (entry dayGiven day : Nat)
  | reserve (port : ClientId) (tag : Nat) (kind : TargetKind) (number : Nat)
  | scheduleWrite (port : ClientId) (tag : Nat) (entry : Nat) (args : EntryArgs)
  | scheduleSuspend (port : ClientId) (tag : Nat) (entry : Nat)
  | scheduleVacate (port : ClientId) (tag : Nat) (entry : Nat)
  | frameAnnotate (port : ClientId) (tag : Nat) (slot mark : Nat) (title : List Byte)
  | frameRelease (port : ClientId) (tag : Nat) (slot : Nat)
  /-- `sections` gives each section's entry and overlap; the overlap of section 0 is ignored (R181). -/
  | mosaicDefine (port : ClientId) (tag : Nat) (group : Nat) (sections : List (Nat × Nat))
  | mosaicDissolve (port : ClientId) (tag : Nat) (group : Nat)
  | pin (port : ClientId) (tag : Nat) (slot : Nat)
  | unpin (port : ClientId) (tag : Nat) (slot : Nat)
  | cursorOpen (port : ClientId) (tag : Nat) (args : CursorOpenArgs)
  | cursorSet (port : ClientId) (tag : Nat) (args : CursorSetArgs)
  | cursorClose (port : ClientId) (tag : Nat) (cursor : Fin 2)
  | readNext (port : ClientId) (tag : Nat) (cursor : Fin 2) (count : Nat)
  | readAt (port : ClientId) (tag : Nat) (cursor : Fin 2) (offset : Int)
  | readMap (port : ClientId) (tag : Nat) (kind : AttachKind) (number first count : Nat)
  | scan (port : ClientId) (tag : Nat) (cursor : Fin 2) (condition parameter limit : Nat)
  | noticeSetLevels (port : ClientId) (tag : Nat) (pairs : List (Nat × Nat))
  | noticeSetThreshold (port : ClientId) (tag : Nat) (threshold : Nat)
  | noticeSummary (port : ClientId) (tag : Nat) (level : Nat)
  | noticeAck (port : ClientId) (tag : Nat) (kind sort number countGiven count : Nat)
  | noticeRaise (port : ClientId) (tag : Nat) (target code : Nat)
  | errorsPeek (port : ClientId) (tag : Nat) (count : Nat)
  | errorsTake (port : ClientId) (tag : Nat) (logNumber : Nat)
  | storeClear (port : ClientId) (tag : Nat)
  | portReset (port : ClientId) (tag : Nat)
  | frameWrittenWhileStarting (port : ClientId)
deriving DecidableEq, Repr

end Sys2Proof
end

