-- ==== Sys2Proof/WellFormed.lean ====
section
/-! DEFINITION. Which commands a link or a port can deliver: each operand within what its field can carry
(R23 for link records, R181 for request bodies). The ranges an owning block tests are not checked here: a
client may send values outside them and is answered. -/

namespace Sys2Proof

/-- `n` fits a field of one byte, of two bytes, of three bytes (R180). -/
def fits1 (n : Nat) : Bool := decide (n < 256)
def fits2 (n : Nat) : Bool := decide (n < 65536)
def fits3 (n : Nat) : Bool := decide (n < 16777216)

/-- A field that may be not given. -/
def optionFits (p : Nat → Bool) : Option Nat → Bool
  | none => true
  | some n => p n

/-- A signed field of one byte in two's complement (R180). -/
def fitsSigned (i : Int) : Bool := decide (-128 ≤ i ∧ i ≤ 127)

def SourceConfigArgs.wellFormed (a : SourceConfigArgs) : Bool :=
  fits1 a.source && optionFits fits1 a.phasingCount && optionFits fits1 a.skewLimit
    && optionFits fits1 a.trackWindow && optionFits fits1 a.missedLimit && optionFits fits1 a.fadeLimit
    && optionFits fits1 a.adHoc

def StoreConfigArgs.wellFormed (a : StoreConfigArgs) : Bool :=
  optionFits fits1 a.firmThreshold && optionFits fits1 a.replaceMargin && optionFits fits2 a.settleTime
    && optionFits fits2 a.completePerMille && optionFits fits1 a.seamAcceptLimit

def EntryArgs.wellFormed (a : EntryArgs) : Bool :=
  fits1 a.state && fits1 a.station && fits2 a.product && fits2 a.startMinute && fits1 a.tolerance
    && fits1 a.frequencyCount && decide (a.frequencies.length = 4) && a.frequencies.all fits3
    && fits1 a.drum && fits1 a.rate && fits1 a.direction && fits2 a.rows && fits1 a.repeatOf
    && fits1 a.dayShift

def windowFits : Option (Nat × Nat) → Bool
  | none => true
  | some (b, l) => fits2 b && fits2 l

def stepFits : Option Int → Bool
  | none => true
  | some i => fitsSigned i

def CursorOpenArgs.wellFormed (a : CursorOpenArgs) : Bool :=
  fits1 a.number && windowFits a.window && optionFits fits2 a.position && stepFits a.step

def CursorSetArgs.wellFormed (a : CursorSetArgs) : Bool :=
  (match a.attachment with | none => true | some (_, n) => fits1 n)
    && windowFits a.window && optionFits fits2 a.position && stepFits a.step

/-- The payload lengths of an IMAGE record: 448, 672 or 896 bytes (section 2.1). -/
def payloadLengthAllowed (n : Nat) : Bool := n == 448 || n == 672 || n == 896

def pairsFit (l : List (Nat × Nat)) : Bool :=
  decide (l.length < 256) && l.all (fun p => fits1 p.1 && fits1 p.2)

/-- What a link, the memory or a port can deliver. -/
def Instr.wellFormed : Instr → Bool
  | .reset _ _ _ => true
  | .portStartupDone => true
  | .clockSecond => true
  | .start _ frequency _ _ => decide (20000 ≤ frequency ∧ frequency ≤ 300000)
  | .phase _ sequence pulse => decide (sequence < 4096) && fits2 pulse
  | .image _ sequence skew quality payload =>
      decide (sequence < 4096) && fits2 skew && fits1 quality && payloadLengthAllowed payload.length
  | .stop _ => true
  | .drop _ => true
  | .resume _ => true
  | .idle _ => true
  | .failedCheckRecord _ _ => true
  | .linkSilenceExpiry _ => true
  | .linePeriodExpiry _ => true
  | .fadeExpiry _ => true
  | .headTake => true
  | .settleExpiry _ => true
  | .arbiterGrant => true
  | .writeConfirmed _ => true
  | .writeFailed _ => true
  | .copyConfirmed _ => true
  | .copyFailed _ => true
  | .copyReadCorrupt _ => true
  | .confirmationTimeout _ => true
  | .lateReport _ _ => true
  | .readData _ _ => true
  | .readTimeout _ => true
  | .seamJobTake => true
  | .requestWhileBusy _ tag => optionFits fits1 tag
  | .requestRefused _ tag _ => optionFits fits1 tag
  | .responseRead _ => true
  | .getInfo _ tag => fits1 tag
  | .setClock _ tag second day weekday => fits1 tag && fits3 second && fits2 day && fits1 weekday
  | .getClock _ tag => fits1 tag
  | .sourceConfig _ tag args => fits1 tag && args.wellFormed
  | .storeConfig _ tag args => fits1 tag && args.wellFormed
  | .sourceStatus _ tag source => fits1 tag && fits1 source
  | .frameList _ tag => fits1 tag
  | .frameInfo _ tag slot => fits1 tag && fits1 slot
  | .scheduleRead _ tag entry => fits1 tag && fits1 entry
  | .mosaicInfo _ tag group => fits1 tag && fits1 group
  | .prepare _ tag entry dayGiven day => fits1 tag && fits1 entry && fits1 dayGiven && fits2 day
  | .reserve _ tag _ number => fits1 tag && fits1 number
  | .scheduleWrite _ tag entry args => fits1 tag && fits1 entry && args.wellFormed
  | .scheduleSuspend _ tag entry => fits1 tag && fits1 entry
  | .scheduleVacate _ tag entry => fits1 tag && fits1 entry
  | .frameAnnotate _ tag slot mark title => fits1 tag && fits1 slot && fits1 mark && fits1 title.length
  | .frameRelease _ tag slot => fits1 tag && fits1 slot
  | .mosaicDefine _ tag group sections => fits1 tag && fits1 group && pairsFit sections
  | .mosaicDissolve _ tag group => fits1 tag && fits1 group
  | .pin _ tag slot => fits1 tag && fits1 slot
  | .unpin _ tag slot => fits1 tag && fits1 slot
  | .cursorOpen _ tag args => fits1 tag && args.wellFormed
  | .cursorSet _ tag args => fits1 tag && args.wellFormed
  | .cursorClose _ tag _ => fits1 tag
  | .readNext _ tag _ count => fits1 tag && fits1 count
  | .readAt _ tag _ offset => fits1 tag && fitsSigned offset
  | .readMap _ tag _ number first count => fits1 tag && fits1 number && fits2 first && fits1 count
  | .scan _ tag _ condition parameter limit =>
      fits1 tag && fits1 condition && fits1 parameter && fits2 limit
  | .noticeSetLevels _ tag pairs => fits1 tag && pairsFit pairs
  | .noticeSetThreshold _ tag threshold => fits1 tag && fits1 threshold
  | .noticeSummary _ tag level => fits1 tag && fits1 level
  | .noticeAck _ tag kind sort number countGiven count =>
      fits1 tag && fits1 kind && fits1 sort && fits1 number && fits1 countGiven && fits1 count
  | .noticeRaise _ tag target code => fits1 tag && fits1 target && fits1 code
  | .errorsPeek _ tag count => fits1 tag && fits1 count
  | .errorsTake _ tag logNumber => fits1 tag && fits2 logNumber
  | .storeClear _ tag => fits1 tag
  | .portReset _ tag => fits1 tag
  | .frameWrittenWhileStarting _ => true

end Sys2Proof
end

