-- ==== Sys2Proof/Decode.lean ====
section
/-! DEFINITION. From bytes to commands: the check word, the records of a line link (section 2.1, R22, R23) and
the request frames of a client port (section 11.1, R176, R181). No row of spec/opcode_table.json gives bits, so
`decodeTableWord` spells no command; the two byte decoders are what the spec gives in its place. -/

namespace Sys2Proof

/-- No row of the table gives a pattern of bits. -/
def decodeTableWord (_nbits _w : Nat) : Option Instr := none

/-- One bit step of the CRC-16: generator x¹⁶ + x¹² + x⁵ + 1, most significant bit first (section 2.1). -/
def crcBit (c : CheckWord) : CheckWord :=
  if c.msb then (c <<< 1) ^^^ 0x1021#16 else c <<< 1

/-- One byte of the CRC-16. -/
def crcByte (c : CheckWord) (b : Byte) : CheckWord :=
  let c0 := c ^^^ ((b.setWidth 16) <<< 8)
  crcBit (crcBit (crcBit (crcBit (crcBit (crcBit (crcBit (crcBit c0)))))))

/-- The check word: initial value FFFF hex, no final inversion (section 2.1, R115, chapter 11). -/
def crc16 (bytes : List Byte) : CheckWord := bytes.foldl crcByte 0xFFFF#16

/-- A number from its bytes, most significant first (R180). -/
def beNat (bytes : List Byte) : Nat := bytes.foldl (fun n b => n * 256 + b.toNat) 0

/-- The field of `len` bytes at `offset`. -/
def beField (offset len : Nat) (bytes : List Byte) : Nat := beNat ((bytes.drop offset).take len)

/-- A signed field of one byte, in two's complement (R180). -/
def signedField (offset : Nat) (bytes : List Byte) : Int := (BitVec.ofNat 8 (beField offset 1 bytes)).toInt

/-- Bit `k` of the byte at `offset`. -/
def bitField (offset k : Nat) (bytes : List Byte) : Bool := (beField offset 1 bytes).testBit k

/-- The two bytes of a check word, most significant first. -/
def checkBytes (c : CheckWord) : List Byte := [c.extractLsb' 8 8, c.extractLsb' 0 8]

/-- The CRC of everything but the last two bytes equals the last two bytes. -/
def checkWordRight (bytes : List Byte) : Bool :=
  bytes.drop (bytes.length - 2) == checkBytes (crc16 (bytes.take (bytes.length - 2)))

/-! ### Line-link records -/

/-- The codes of a drum class and of a line rate (section 2.1, R180). -/
def drumOfCode : Nat → Option DrumClass
  | 0 => some .narrow
  | 1 => some .standard
  | 2 => some .wide
  | _ => none

def rateOfCode : Nat → Option LineRate
  | 0 => some .lpm60
  | 1 => some .lpm120
  | 2 => some .lpm240
  | _ => none

/-- The form test of R23 on a record whose check word is right: its command, or none where the form fails. -/
def linkForm (src : SourceId) (kind : Nat) (body : List Byte) : Option Instr :=
  match kind with
  | 1 =>
    if body.length = 5 then
      match drumOfCode (beField 3 1 body), rateOfCode (beField 4 1 body) with
      | some drum, some rate =>
        let f := beField 0 3 body
        if 20000 ≤ f ∧ f ≤ 300000 then some (.start src f drum rate) else none
      | _, _ => none
    else none
  | 2 =>
    if body.length = 4 ∧ beField 0 2 body < 4096 then
      some (.phase src (beField 0 2 body) (beField 2 2 body))
    else none
  | 3 =>
    if payloadLengthAllowed (body.length - 5) ∧ 5 ≤ body.length ∧ beField 0 2 body < 4096 then
      some (.image src (beField 0 2 body) (beField 2 2 body) (beField 4 1 body) (body.drop 5))
    else none
  | 4 => if body.length = 0 then some (.stop src) else none
  | 5 => if body.length = 0 then some (.drop src) else none
  | 6 => if body.length = 0 then some (.resume src) else none
  | 7 => if body.length = 0 then some (.idle src) else none
  | _ => none

/-- The command a record is (R22, R23). `record` is the bytes after the sync byte: kind, length, body and check
word, or kind and length alone where the length exceeds 901 (such a record ends there and its check has failed;
DEDUCED: it is counted as failing the check word, log 22). Total on any bytes. -/
def decodeLinkRecord (src : SourceId) (record : List Byte) : Instr :=
  if 901 < beField 1 2 record then .failedCheckRecord src .checkWord
  else if record.length = 5 + beField 1 2 record ∧ checkWordRight record then
    match linkForm src (beField 0 1 record) ((record.drop 3).take (beField 1 2 record)) with
    | some c => c
    | none => .failedCheckRecord src .form
  else .failedCheckRecord src .checkWord

/-- The link receiver (R22): skip to a sync byte C3 hex, take kind, length, body and check word as one record,
and look for the next sync byte. The second component is what has arrived of a record not yet whole. The fuel is
the number of bytes, which every record uses up by at least one. -/
def splitLinkBytes : Nat → List Byte → List (List Byte) × List Byte
  | 0, rest => ([], rest)
  | fuel + 1, bytes =>
    match bytes with
    | [] => ([], [])
    | b :: rest =>
      if b ≠ 0xC3#8 then splitLinkBytes fuel rest
      else if rest.length < 3 then ([], bytes)
      else
        let len := beField 1 2 rest
        let n := if 901 < len then 3 else 5 + len
        if rest.length < n then ([], bytes)
        else
          let (records, left) := splitLinkBytes fuel (rest.drop n)
          (rest.take n :: records, left)

/-- The commands a burst of link bytes delivers, in order. -/
def decodeLinkBytes (src : SourceId) (bytes : List Byte) : List Instr :=
  (splitLinkBytes bytes.length bytes).1.map (decodeLinkRecord src)

/-! ### Request frames -/

def targetOfCode : Nat → Option TargetKind
  | 0 => some .entry
  | 1 => some .frame
  | 2 => some .group
  | _ => none

def attachOfCode : Nat → Option AttachKind
  | 0 => some .current
  | 1 => some .previous
  | 2 => some .group
  | _ => none

/-- A cursor field: port CPn's cursors 0 and 1; above 1 the form fails (R181). -/
def cursorOfByte (n : Nat) : Option (Fin 2) := if h : n < 2 then some ⟨n, h⟩ else none

/-- A field that is given when its bit of the fields-given byte is set. -/
def givenField (given : Bool) (v : Nat) : Option Nat := if given then some v else none

/-- The entry and overlap, or kind and level, pairs that follow a count (R181). -/
def bytePairs : Nat → List Byte → List (Nat × Nat)
  | 0, _ => []
  | n + 1, a :: b :: rest => (a.toNat, b.toNat) :: bytePairs n rest
  | _ + 1, _ => []

/-- The body of SCHEDULE_WRITE after the operation and the target number: state and the schedule fields (R181). -/
def entryArgsOf (b : List Byte) : EntryArgs where
  state := beField 0 1 b
  station := beField 1 1 b
  product := beField 2 2 b
  startMinute := beField 4 2 b
  tolerance := beField 6 1 b
  frequencyCount := beField 7 1 b
  frequencies := [beField 8 3 b, beField 11 3 b, beField 14 3 b, beField 17 3 b]
  drum := beField 20 1 b
  rate := beField 21 1 b
  direction := beField 22 1 b
  rows := beField 23 2 b
  days := BitVec.ofNat 8 (beField 25 1 b)
  repeatOf := beField 26 1 b
  dayShift := beField 27 1 b

/-- A COMMIT body (R181 code 13): its operation, its target number and the operation's data. -/
def commitForm (p : ClientId) (t : Nat) (b : List Byte) : Option Instr :=
  let n := beField 1 1 b
  if b.length < 2 then none else
  match beField 0 1 b with
  | 0 => if b.length = 30 then some (.scheduleWrite p t n (entryArgsOf (b.drop 2))) else none
  | 1 => if b.length = 2 then some (.scheduleSuspend p t n) else none
  | 2 => if b.length = 2 then some (.scheduleVacate p t n) else none
  | 3 =>
    if 4 ≤ b.length ∧ b.length = 4 + beField 3 1 b then
      some (.frameAnnotate p t n (beField 2 1 b) (b.drop 4))
    else none
  | 4 => if b.length = 2 then some (.frameRelease p t n) else none
  | 5 =>
    if 3 ≤ b.length ∧ b.length = 3 + 2 * beField 2 1 b then
      some (.mosaicDefine p t n (bytePairs (beField 2 1 b) (b.drop 3)))
    else none
  | 6 => if b.length = 2 then some (.mosaicDissolve p t n) else none
  | _ => none

/-- A CURSOR_OPEN body (R181 code 16). DESIGN CHOICE (log 35): 13 bytes, as R181's last column says, the fields it lists
in the first 12 and the thirteenth ignored. -/
def cursorOpenForm (p : ClientId) (t : Nat) (b : List Byte) : Option Instr :=
  if b.length = 13 then
    match cursorOfByte (beField 0 1 b), attachOfCode (beField 1 1 b) with
    | some c, some k =>
      some (.cursorOpen p t
        { cursor := c, kind := k, number := beField 2 1 b
          window := if bitField 3 0 b then some (beField 4 2 b, beField 6 2 b) else none
          position := givenField (bitField 3 1 b) (beField 8 2 b)
          step := if bitField 3 2 b then some (signedField 10 b) else none
          follow := bitField 11 0 b, retain := bitField 11 1 b })
    | _, _ => none
  else none

/-- A CURSOR_SET body (R181 code 17): an attachment that is not given may hold any code. DESIGN CHOICE (log 35): 13 bytes,
the fields in the first 12, as for CURSOR_OPEN. -/
def cursorSetForm (p : ClientId) (t : Nat) (b : List Byte) : Option Instr :=
  if b.length = 13 then
    match cursorOfByte (beField 0 1 b) with
    | none => none
    | some c =>
      let rest (a : Option (AttachKind × Nat)) : Instr := .cursorSet p t
        { cursor := c, attachment := a
          window := if bitField 1 1 b then some (beField 4 2 b, beField 6 2 b) else none
          position := givenField (bitField 1 2 b) (beField 8 2 b)
          step := if bitField 1 3 b then some (signedField 10 b) else none
          hints := if bitField 1 4 b then some (bitField 11 0 b, bitField 11 1 b) else none }
      if bitField 1 0 b then
        match attachOfCode (beField 2 1 b) with
        | some k => some (rest (some (k, beField 3 1 b)))
        | none => none
      else some (rest none)
  else none

/-- The command a body of code `code` gives, or none where the code or the form is not one (R178, R181). -/
def requestForm (p : ClientId) (code t : Nat) (b : List Byte) : Option Instr :=
  let whenLength (n : Nat) (c : Instr) : Option Instr := if b.length = n then some c else none
  let withCursor (n : Nat) (f : Fin 2 → Instr) : Option Instr :=
    if b.length = n then (cursorOfByte (beField 0 1 b)).map f else none
  match code with
  | 1 => whenLength 0 (.getInfo p t)
  | 2 => whenLength 6 (.setClock p t (beField 0 3 b) (beField 3 2 b) (beField 5 1 b))
  | 3 => whenLength 0 (.getClock p t)
  | 4 => whenLength 8 (.sourceConfig p t
      { source := beField 0 1 b
        phasingCount := givenField (bitField 1 0 b) (beField 2 1 b)
        skewLimit := givenField (bitField 1 1 b) (beField 3 1 b)
        trackWindow := givenField (bitField 1 2 b) (beField 4 1 b)
        missedLimit := givenField (bitField 1 3 b) (beField 5 1 b)
        fadeLimit := givenField (bitField 1 4 b) (beField 6 1 b)
        adHoc := givenField (bitField 1 5 b) (beField 7 1 b)
        clearCounters := bitField 1 6 b })
  | 5 => whenLength 8 (.storeConfig p t
      { firmThreshold := givenField (bitField 0 0 b) (beField 1 1 b)
        replaceMargin := givenField (bitField 0 1 b) (beField 2 1 b)
        settleTime := givenField (bitField 0 2 b) (beField 3 2 b)
        completePerMille := givenField (bitField 0 3 b) (beField 5 2 b)
        seamAcceptLimit := givenField (bitField 0 4 b) (beField 7 1 b) })
  | 6 => whenLength 1 (.sourceStatus p t (beField 0 1 b))
  | 7 => whenLength 0 (.frameList p t)
  | 8 => whenLength 1 (.frameInfo p t (beField 0 1 b))
  | 9 => whenLength 1 (.scheduleRead p t (beField 0 1 b))
  | 10 => whenLength 1 (.mosaicInfo p t (beField 0 1 b))
  | 11 => whenLength 4 (.prepare p t (beField 0 1 b) (beField 1 1 b) (beField 2 2 b))
  | 12 => if b.length = 2 then
      (targetOfCode (beField 0 1 b)).map (fun k => .reserve p t k (beField 1 1 b)) else none
  | 13 => commitForm p t b
  | 14 => whenLength 1 (.pin p t (beField 0 1 b))
  | 15 => whenLength 1 (.unpin p t (beField 0 1 b))
  | 16 => cursorOpenForm p t b
  | 17 => cursorSetForm p t b
  | 18 => withCursor 1 (fun c => .cursorClose p t c)
  | 19 => withCursor 2 (fun c => .readNext p t c (beField 1 1 b))
  | 20 => withCursor 2 (fun c => .readAt p t c (signedField 1 b))
  | 21 => if b.length = 5 then
      (attachOfCode (beField 0 1 b)).map
        (fun k => .readMap p t k (beField 1 1 b) (beField 2 2 b) (beField 4 1 b)) else none
  | 22 => withCursor 5 (fun c => .scan p t c (beField 1 1 b) (beField 2 1 b) (beField 3 2 b))
  | 23 => if 1 ≤ b.length ∧ b.length = 1 + 2 * beField 0 1 b then
      some (.noticeSetLevels p t (bytePairs (beField 0 1 b) (b.drop 1))) else none
  | 24 => whenLength 1 (.noticeSetThreshold p t (beField 0 1 b))
  | 25 => whenLength 1 (.noticeSummary p t (beField 0 1 b))
  | 26 => whenLength 5 (.noticeAck p t (beField 0 1 b) (beField 1 1 b) (beField 2 1 b) (beField 3 1 b)
      (beField 4 1 b))
  | 27 => whenLength 2 (.noticeRaise p t (beField 0 1 b) (beField 1 1 b))
  | 28 => whenLength 1 (.errorsPeek p t (beField 0 1 b))
  | 29 => whenLength 2 (.errorsTake p t (beField 0 2 b))
  | 30 => whenLength 0 (.storeClear p t)
  | 31 => whenLength 0 (.portReset p t)
  | _ => none

/-- The tag of a frame: absent where it is shorter than two bytes (R176). -/
def frameTag (frame : List Byte) : Option Nat :=
  if frame.length < 2 then none else some (beField 1 1 frame)

/-- The command a request frame is, by the tests of R176 in their order up to the form of the body; the class
test is the port's (Machine/Ports.lean). Total on any bytes. -/
def decodeRequest (p : ClientId) (frame : List Byte) : Instr :=
  if frame.length < 6 then .requestRefused p (frameTag frame) .check
  else if ¬ (frame.length = 6 + beField 2 2 frame ∧ beField 2 2 frame ≤ 1024) then
    .requestRefused p (frameTag frame) .check
  else if checkWordRight frame then
    match requestForm p (beField 0 1 frame) (beField 1 1 frame) ((frame.drop 4).take (beField 2 2 frame)) with
    | some c => c
    | none => .requestRefused p (frameTag frame) .badRequest
  else .requestRefused p (frameTag frame) .check

end Sys2Proof
end

