-- ==== Sys2Proof/Machine/State.lean ====
section
/-! DEFINITION. The state of the FX-340, block by block (00_scope, "Block diagram"), as plain data, and its
power-on value. A table of a fixed number of records is a `Vector`; a field the spec calls absent is `none`;
fields that are present together are one record under one `Option`. -/

namespace Sys2Proof.Machine

/-! ### Schedule and binding unit -/

/-- The day clock (R1). -/
structure DayClock where
  isSet   : Bool
  second  : Nat
  day     : Nat
  weekday : Weekday
deriving DecidableEq, Repr

/-- The state of an entry that is not VACANT (R3). -/
inductive EntryMode where
  | active | suspended
deriving DecidableEq, Repr

/-- The fields of an entry that is not VACANT (R3). Bit k of `days` is the k-th weekday from Monday. -/
structure EntryFields where
  station     : Nat
  product     : Nat
  startMinute : Nat
  tolerance   : Nat
  frequencies : List Nat
  drum        : DrumClass
  rate        : LineRate
  direction   : Direction
  rows        : Nat
  days        : BitVec 7
  repeatOf    : Option EntryId
  dayShift    : Nat
deriving DecidableEq, Repr

/-- A schedule entry (R3); `definition` is absent while the entry is VACANT. -/
structure ScheduleEntry where
  definition : Option (EntryMode × EntryFields)
  writer     : Option ClientId
  stamp      : Nat
deriving DecidableEq, Repr

/-! ### Source channels -/

/-- Drum class, line rate, direction and expected rows, of a frame (R75) or a stream (R24). -/
structure Geometry where
  drum      : DrumClass
  rate      : LineRate
  direction : Direction
  rows      : Nat
deriving DecidableEq, Repr

inductive SourceState where
  | idle | phasing | receiving | faded | draining | discarding | linkDown
deriving DecidableEq, Repr

/-- What a source takes from SBU's answer (R25). -/
structure StreamBinding where
  frame    : FrameId
  pass     : Nat
  geometry : Geometry
deriving DecidableEq, Repr

/-- A START's frequency, drum class and line rate (R24's held START). -/
structure StartRecord where
  frequency : Nat
  drum      : DrumClass
  rate      : LineRate
deriving DecidableEq, Repr

/-- The end a STOP marker holds (R29). -/
inductive StopEnd where
  | normal | lost | overrun
deriving DecidableEq, Repr

/-- A line record of a ring (R29). -/
structure LineRecord where
  sequence  : Nat
  skew      : Nat
  quality   : Nat
  payload   : List Byte
  reference : Nat
  unphased  : Bool
  faded     : Bool
deriving DecidableEq, Repr

inductive RingRecord where
  | line (r : LineRecord)
  | marker (e : StopEnd)
deriving DecidableEq, Repr

/-- The head state PE keeps for a source (R51). -/
inductive HeadState where
  | ready
  | stalled (frame : FrameId) (row : Nat)
  | waiting
deriving DecidableEq, Repr

/-- The five counters of a source, sticky at 65535 (R47), and the PHASE records it has dropped in DISCARDING, which R16 has
the source count. DESIGN CHOICE (log 37): R47 lists no counter for these, so the model keeps one beside the five, which is
cleared with them and which no response carries. -/
structure SourceCounters where
  received  : Nat
  placed    : Nat
  mergedOut : Nat
  rejected  : Nat
  overrun   : Nat
  phases    : Nat
deriving DecidableEq, Repr

/-- The configuration of a source (R46). -/
structure SourceConfig where
  phasingCount : Nat
  skewLimit    : Nat
  trackWindow  : Nat
  missedLimit  : Nat
  fadeLimit    : Nat
  adHoc        : Bool
deriving DecidableEq, Repr

/-- A source channel (R24). A timer is `none` while stopped and holds the interval loaded, in milliseconds,
while running. -/
structure Source where
  state           : SourceState
  binding         : Option StreamBinding
  firstSeq        : Option Nat
  expectedSeq     : Option Nat
  reference       : Nat
  unphased        : Bool
  positions       : List Nat
  misses          : Nat
  rejections      : Nat
  checkFailures   : Nat
  recovery        : Nat
  held            : Option StartRecord
  ring            : List RingRecord
  hysteresis      : Bool
  linePeriodTimer : Option Nat
  fadeTimer       : Option Nat
  silenceTimer    : Option Nat
  counters        : SourceCounters
  config          : SourceConfig
  head            : HeadState
deriving DecidableEq, Repr

/-! ### Placement engine -/

/-- SKEWED, UNPHASED and FADED (R49). -/
structure LineFlags where
  skewed   : Bool
  unphased : Bool
  faded    : Bool
deriving DecidableEq, Repr

/-- The particulars of a line held, or pending, in a row (R49). -/
structure LineInfo where
  source   : SourceId
  pass     : Nat
  quality  : Nat
  rotation : Int
  flags    : LineFlags
deriving DecidableEq, Repr

/-- The state of a row entry with the fields that state carries (R49). -/
inductive RowState where
  | empty
  | missed
  | provisional (line : LineInfo)
  | firm (line : LineInfo)
  | damaged (pass : Nat)
deriving DecidableEq, Repr

/-- The in-flight field (R49); a map built over a stale write has no pending line (R66). -/
inductive InFlight where
  | no
  | write (pending : Option LineInfo)
  | copy
deriving DecidableEq, Repr

/-- A row entry (R49). -/
structure RowEntry where
  state     : RowState
  inFlight  : InFlight
  preserved : Option PoolRow
  lost      : Bool
deriving DecidableEq, Repr

/-- The store configuration (R70). -/
structure StoreConfig where
  firmThreshold    : Nat
  replaceMargin    : Nat
  settleTime       : Nat
  completePerMille : Nat
  seamAcceptLimit  : Nat
deriving DecidableEq, Repr

/-! ### Frame lifecycle unit -/

/-- The states of a frame (R75); `partialOnly` is PARTIAL. -/
inductive FrameState where
  | free | expected | receiving | settling | complete | partialOnly | faulted
deriving DecidableEq, Repr

/-- A frame's pin holders (R75, R165): the explicit pin of each client and the RETAIN hold of each cursor. -/
structure PinSet where
  explicit : Vector Bool 3
  retain   : Vector Bool 6
deriving DecidableEq, Repr

/-- A frame record (R75), with its settle timer (R80, in milliseconds) and the row map PE keeps for it (R49,
empty while there is no map). -/
structure Frame where
  state       : FrameState
  entry       : Option EntryId
  root        : Option EntryId
  day         : Nat
  station     : Nat
  product     : Nat
  geometry    : Option Geometry
  pass        : Nat
  joined      : Vector Bool 3
  coverage    : Nat
  missed      : Nat
  damaged     : Nat
  settledAt   : Option (Nat × Nat)
  title       : List Byte
  mark        : Nat
  pins        : PinSet
  view        : Option ViewId
  mosaic      : Option (GroupId × Nat)
  stamp       : Nat
  enable      : Bool
  pendingMark : Bool
  memoryError : Bool
  settleTimer : Option Nat
  rowMap      : List RowEntry
deriving DecidableEq, Repr

/-- A view record (R88). -/
structure View where
  frame      : FrameId
  generation : Nat
  torn       : Bool
  held       : Nat
  cursors    : Nat
deriving DecidableEq, Repr

/-- What a pool row in use holds (R93). -/
structure PoolHold where
  view  : ViewId
  frame : FrameId
  row   : Nat
deriving DecidableEq, Repr

/-! ### Mosaic unit -/

inductive SeamState where
  | none | waiting | queued | searching | found | weak
deriving DecidableEq, Repr

/-- The seam of a section other than section 0 (R97). -/
structure Seam where
  overlap    : Nat
  adjustment : Int
  state      : SeamState
  score      : Option Nat
deriving DecidableEq, Repr

/-- A section record (R97); `seam` is absent for section 0. -/
structure MosaicSection where
  entry   : EntryId
  nominal : Nat
  frame   : Option FrameId
  seam    : Option Seam
deriving DecidableEq, Repr

inductive GroupState where
  | undefined | gathering | joining | joined
deriving DecidableEq, Repr

/-- A mosaic group (R97). -/
structure Group where
  state    : GroupState
  drum     : Option DrumClass
  sections : List MosaicSection
  height   : Nat
  stamp    : Nat
deriving DecidableEq, Repr

/-- A search in progress (R107): its windows are over rows of the two frames, and `taken` holds, for each row
taken so far, its payload where it was usable. -/
structure Search where
  group      : GroupId
  seam       : Nat
  drum       : DrumClass
  upperFrame : FrameId
  lowerFrame : FrameId
  upperRows  : Nat
  overlap    : Nat
  taken      : List (Option (List Byte))
deriving DecidableEq, Repr

/-! ### Picture memory controller -/

/-- The two kinds of write-class operation (R116). -/
inductive WriteKind where
  | rowWrite (payload : List Byte)
  | rowCopy (pool : PoolRow) (preserved : LineInfo)
deriving DecidableEq, Repr

/-- A held place of the posted write queue (R116): `issued` is absent while UNISSUED and otherwise the number of
the operation in the order of issue (log 9); `stale` is PE's mark (R66). -/
structure WriteOp where
  kind   : WriteKind
  slot   : FrameId
  row    : Nat
  pass   : Nat
  drum   : DrumClass
  issued : Option Nat
  stale  : Bool
deriving DecidableEq, Repr

/-- What became of a read's frame while the read was at the controller (R124, R125). -/
inductive ReadFate where
  | normal | vanished | faulted
deriving DecidableEq, Repr

/-- A read request in a holder (R122): WAITING while `issued` is absent, then OUTSTANDING. `abandoned` says that
the requester has left; `viewGone` that the view of a pool read has been released since the read was placed. -/
structure ReadRequest where
  slot      : FrameId
  row       : Nat
  drum      : DrumClass
  pool      : Option PoolRow
  issued    : Option Nat
  fate      : ReadFate
  abandoned : Bool
  viewGone  : Bool
deriving DecidableEq, Repr

/-- An operation that has returned by its timer and that memory may still report (R119, R123); `op` is absent
for a read. -/
structure LateOp where
  issued : Nat
  op     : Option WriteOp
deriving DecidableEq, Repr

/-! ### Notices and errors -/

/-- What a notice or an error record concerns (R127, R167). -/
inductive Origin where
  | source (i : SourceId)
  | frame (f : FrameId)
  | group (g : GroupId)
  | client (c : ClientId)
  | memory
deriving DecidableEq, Repr

/-- JOIN, REJOIN, NEW_PASS, EXPECTED or FRESH (R17). -/
inductive BindingKind where
  | join | rejoin | newPass | expected | fresh
deriving DecidableEq, Repr

/-- The cause a MOSAIC_STALE gives (R103). -/
inductive StaleCause where
  | newPass | newFrame | free | faulted
deriving DecidableEq, Repr

/-- The cause a CURSOR_LOST gives (R154). -/
inductive LostCause where
  | free | faulted | viewReleased | dissolved
deriving DecidableEq, Repr

/-- The ten kinds of error (R128). -/
inductive ErrorKind where
  | lineRejected | linkCheck | ringOverrun | frameExhausted | linkLost
  | writeFailed | writeTimeout | readCorrupt | shadowExhausted | frameFaulted
deriving DecidableEq, Repr

/-- How FC filed an error (R129, R131). -/
inductive Filing where
  | appended | folded | dropped
deriving DecidableEq, Repr

/-- SCHEDULE_CHANGED's operation (R160, R161). -/
inductive ScheduleOp where
  | write | suspend | vacate
deriving DecidableEq, Repr

/-- A notice's kind with its detail (R167). -/
inductive NoticeDetail where
  | frameBound (source : SourceId) (kind : BindingKind)
  | passSettled (pass : Nat) (complete : Bool)
  | frameEvicted (source : SourceId)
  | expectedLapsed (entry : Option EntryId)
  | frameFaulted (pass code : Nat)
  | gap (frame : FrameId) (sequence : Nat)
  | fade (frame : Option FrameId) (byMisses : Bool)
  | sourceEnd (frame : FrameId) (pass : Nat) (stop : StopEnd)
  | unscheduled (clockUnset : Bool)
  | viewTorn (view : ViewId) (row : Nat)
  | mosaicJoined (height weak : Nat)
  | mosaicStale (index : Nat) (cause : StaleCause)
  | cursorLostFrame (cursor : CursorId) (frame : FrameId) (cause : LostCause)
  | cursorLostGroup (cursor : CursorId) (group : GroupId) (cause : LostCause)
  | errorLogged (kind : ErrorKind) (filing : Filing)
  | scheduleChanged (entry : EntryId) (op : ScheduleOp)
  | relay (code : Nat)
deriving DecidableEq, Repr

/-- A pending pair (R169); its kind is its detail's. -/
structure NoticePair where
  origin : Origin
  detail : NoticeDetail
  level  : Nat
  count  : Nat
deriving DecidableEq, Repr

/-- What NU keeps for a client (R168 to R170): `levels` in the order of the kind codes 1 to 16, the pending set
in the order of R171, and the NOTICE line of its port. -/
structure NoticeClient where
  levels     : Vector Nat 16
  threshold  : Nat
  pendingSet : List NoticePair
  line       : Bool
deriving DecidableEq, Repr

/-- An error record (R127); its class is fixed by its kind. -/
structure ErrorRecord where
  number  : Nat
  kind    : ErrorKind
  origin  : Origin
  frame   : Option FrameId
  row     : Option Nat
  pass    : Option Nat
  detail  : Nat
  time    : Nat
  repeats : Nat
  lost    : Nat
  marking : Bool
deriving DecidableEq, Repr

/-! ### Read unit, reservation unit, client ports -/

/-- A cursor's attachment (R139). -/
inductive Attachment where
  | current (f : FrameId)
  | previous (f : FrameId)
  | group (g : GroupId)
deriving DecidableEq, Repr

/-- The fields of a cursor that is OPEN or LOST (R139). -/
structure CursorFields where
  attachment : Attachment
  position   : Nat
  step       : Int
  base       : Nat
  length     : Nat
  follow     : Bool
  retain     : Bool
deriving DecidableEq, Repr

inductive CursorSlot where
  | closed
  | opened (fields : CursorFields)
  | lost (fields : CursorFields)
deriving DecidableEq, Repr

/-- The status codes of a response (R178). -/
inductive Status where
  | ok | busy | check | denied | badRequest | noSuch | conflict | inUse | pinned | noView
  | rowLost | rowDamaged | notYet | faulted | clockUnset | full | lost
deriving DecidableEq, Repr

/-- The section, frame and frame row a mosaic item names (R145). -/
structure Naming where
  index : Nat
  frame : FrameId
  row   : Nat
deriving DecidableEq, Repr

/-- A row item (R145); `report` is the ten bytes of its row entry (R182). -/
structure RowItem where
  row     : Nat
  status  : Status
  report  : List Byte
  naming  : Option Naming
  payload : List Byte
deriving DecidableEq, Repr

/-- A read command (R146, R148). -/
inductive JobKind where
  | readNext (count : Nat)
  | readAt (offset : Int)
deriving DecidableEq, Repr

/-- What the command waits for: the data of a row, whose item it has prepared as R144 says, of frame row
`frameRow`; or to take its next row anew (R149, R150, log 19). -/
inductive JobPhase where
  | awaiting (item : RowItem) (frame : FrameId) (frameRow : Nat)
  | retake
deriving DecidableEq, Repr

/-- A read command being carried out (R139's read in flight, R144); `items` are in the order read. -/
structure ReadJob where
  kind  : JobKind
  items : List RowItem
  phase : JobPhase
deriving DecidableEq, Repr

/-- A cursor (R139). -/
structure Cursor where
  slot : CursorSlot
  job  : Option ReadJob
deriving DecidableEq, Repr

/-- The target of a reservation (R157). -/
inductive Target where
  | entry (e : EntryId)
  | frame (f : FrameId)
  | group (g : GroupId)
deriving DecidableEq, Repr

/-- A client's reservation (R157). -/
structure Reservation where
  target : Option Target
  stamp  : Nat
  valid  : Bool
deriving DecidableEq, Repr

/-- A response frame without its length and check word, which its body and the layout give (section 11.1). -/
structure Response where
  status : Status
  tag    : Nat
  body   : List Byte
deriving DecidableEq, Repr

inductive PortState where
  | starting | idle | executing | done
deriving DecidableEq, Repr

/-- A client port (R175, R177); `tag` is that of the command in progress, `lastRead` the frame the client last
read out of the port (log 23). -/
structure Port where
  state    : PortState
  buffer   : Option Response
  tag      : Nat
  busyTag  : Option Nat
  mask     : Byte
  lastRead : Option Response
deriving DecidableEq, Repr

/-! ### The machine -/

/-- The whole part. -/
structure State where
  clock        : DayClock
  schedule     : Vector ScheduleEntry 64
  sources      : Vector Source 3
  pointer      : SourceId
  storeConfig  : StoreConfig
  frames       : Vector Frame 24
  views        : Vector (Option View) 4
  pool         : Vector (Option PoolHold) 512
  groups       : Vector Group 8
  seamQueue    : List (GroupId × Nat)
  engine       : Option Search
  memory       : List Host.Cell
  writeQueue   : List WriteOp
  holders      : Vector (Option ReadRequest) 6
  seamHolder   : Option ReadRequest
  readPointer  : CursorId
  issueCount   : Nat
  answerFloor  : Nat
  late         : List LateOp
  errors       : List ErrorRecord
  logCounter   : Nat
  cursors      : Vector Cursor 6
  reservations : Vector Reservation 3
  clients      : Vector NoticeClient 3
  ports        : Vector Port 3
  powerOns     : Nat
  freeDraws    : Nat
  pending      : List Instr
deriving DecidableEq, Repr

/-- Reasons to stop with a fault: none. Every trouble the spec describes is a next state (a DAMAGED row, a
FAULTED frame, an error record, a status). -/
inductive Fault where
deriving DecidableEq, Repr

/-- Reasons to refuse a command. -/
inductive Refusal where
  /-- Raised by an arm of `exec` for a command that has no meaning yet; no arm does. Safe. -/
  | notModelled (mnemonic : String)
deriving DecidableEq, Repr

/-! ### Power-on values -/

/-- The clock at power-on (R1). -/
def DayClock.powerOn : DayClock := { isSet := false, second := 0, day := 0, weekday := .monday }

/-- An entry at power-on (R3). -/
def ScheduleEntry.powerOn : ScheduleEntry := { definition := none, writer := none, stamp := 0 }

/-- The configuration defaults of a source (R46). -/
def SourceConfig.powerOn : SourceConfig :=
  { phasingCount := 20, skewLimit := 48, trackWindow := 2, missedLimit := 40, fadeLimit := 30, adHoc := false }

def SourceCounters.zero : SourceCounters :=
  { received := 0, placed := 0, mergedOut := 0, rejected := 0, overrun := 0, phases := 0 }

/-- A source at power-on (R24): IDLE, its link silence timer of 2 s running. -/
def Source.powerOn : Source where
  state := .idle
  binding := none
  firstSeq := none
  expectedSeq := none
  reference := 0
  unphased := false
  positions := []
  misses := 0
  rejections := 0
  checkFailures := 0
  recovery := 0
  held := none
  ring := []
  hysteresis := false
  linePeriodTimer := none
  fadeTimer := none
  silenceTimer := some 2000
  counters := .zero
  config := .powerOn
  head := .ready

/-- The store configuration defaults (R70). -/
def StoreConfig.powerOn : StoreConfig :=
  { firmThreshold := 200, replaceMargin := 16, settleTime := 60, completePerMille := 980, seamAcceptLimit := 3 }

def PinSet.empty : PinSet := { explicit := .replicate 3 false, retain := .replicate 6 false }

/-- The record of a FREE slot with the given stamp (R75). -/
def Frame.freeWith (stamp : Nat) : Frame where
  state := .free
  entry := none
  root := none
  day := 0
  station := 0
  product := 0
  geometry := none
  pass := 0
  joined := .replicate 3 false
  coverage := 0
  missed := 0
  damaged := 0
  settledAt := none
  title := []
  mark := 0
  pins := .empty
  view := none
  mosaic := none
  stamp := stamp
  enable := false
  pendingMark := false
  memoryError := false
  settleTimer := none
  rowMap := []

/-- An UNDEFINED group with the given stamp (R97). DESIGN CHOICE (log 38), unsafe: its composite height is 0 also before
any definition, where the spec gives none (R99 gives 0 after a dissolve). -/
def Group.undefinedWith (stamp : Nat) : Group :=
  { state := .undefined, drum := none, sections := [], height := 0, stamp := stamp }

def Reservation.powerOn : Reservation := { target := none, stamp := 0, valid := false }

/-- NU's record of a client at power-on (R174). -/
def NoticeClient.powerOn : NoticeClient :=
  { levels := .replicate 16 0, threshold := 0, pendingSet := [], line := false }

/-- A port at power-on with the class mask its straps give (R175, R177). -/
def Port.powerOn (mask : Byte) : Port :=
  { state := .starting, buffer := none, tag := 0, busyTag := none, mask := mask, lastRead := none }

/-- The part in its power-on state, with the straps of groups CFG0 to CFG2 sampled (R175 and each chapter's
power-on values). The memory's content is undefined: nothing is listed (log 5). -/
def State.powerOn (cfg0 cfg1 cfg2 : Byte) : State where
  clock := .powerOn
  schedule := .replicate 64 .powerOn
  sources := .replicate 3 .powerOn
  pointer := 0
  storeConfig := .powerOn
  frames := .replicate 24 (.freeWith 0)
  views := .replicate 4 none
  pool := .replicate 512 none
  groups := .replicate 8 (.undefinedWith 0)
  seamQueue := []
  engine := none
  memory := []
  writeQueue := []
  holders := .replicate 6 none
  seamHolder := none
  readPointer := 0
  issueCount := 0
  answerFloor := 0
  late := []
  errors := []
  logCounter := 0
  cursors := .replicate 6 { slot := .closed, job := none }
  reservations := .replicate 3 .powerOn
  clients := .replicate 3 .powerOn
  ports := #v[.powerOn cfg0, .powerOn cfg1, .powerOn cfg2]
  powerOns := 0
  freeDraws := 0
  pending := []

/-- The machine right after reset. DESIGN CHOICE (log 4): every strap is read as tied low here, since the spec
gives no strap levels; the RESET command carries the levels of a vessel's fit. -/
def State.reset : State := .powerOn 0#8 0#8 0#8

end Sys2Proof.Machine
end

