-- ==== Sys2Proof/Machine/Ops.lean ====
section
/-! DEFINITION. The named operations over the tables of the state and over picture memory: one read and one
write for each table, and the canonical-form memory (R114). Every other file goes through these. -/

namespace Sys2Proof.Machine

/-! ### Tables -/

def State.entryAt (s : State) (e : EntryId) : ScheduleEntry := s.schedule[e.val]
def State.setEntry (s : State) (e : EntryId) (x : ScheduleEntry) : State :=
  { s with schedule := s.schedule.set e.val x }

def State.source (s : State) (i : SourceId) : Source := s.sources[i.val]
def State.setSource (s : State) (i : SourceId) (x : Source) : State :=
  { s with sources := s.sources.set i.val x }

def State.frame (s : State) (f : FrameId) : Frame := s.frames[f.val]
def State.setFrame (s : State) (f : FrameId) (x : Frame) : State :=
  { s with frames := s.frames.set f.val x }

def State.view (s : State) (v : ViewId) : Option View := s.views[v.val]
def State.setView (s : State) (v : ViewId) (x : Option View) : State :=
  { s with views := s.views.set v.val x }

def State.poolRow (s : State) (p : PoolRow) : Option PoolHold := s.pool[p.val]
def State.setPoolRow (s : State) (p : PoolRow) (x : Option PoolHold) : State :=
  { s with pool := s.pool.set p.val x }

def State.group (s : State) (g : GroupId) : Group := s.groups[g.val]
def State.setGroup (s : State) (g : GroupId) (x : Group) : State :=
  { s with groups := s.groups.set g.val x }

def State.cursor (s : State) (c : CursorId) : Cursor := s.cursors[c.val]
def State.setCursor (s : State) (c : CursorId) (x : Cursor) : State :=
  { s with cursors := s.cursors.set c.val x }

def State.reservation (s : State) (n : ClientId) : Reservation := s.reservations[n.val]
def State.setReservation (s : State) (n : ClientId) (x : Reservation) : State :=
  { s with reservations := s.reservations.set n.val x }

def State.client (s : State) (n : ClientId) : NoticeClient := s.clients[n.val]
def State.setClient (s : State) (n : ClientId) (x : NoticeClient) : State :=
  { s with clients := s.clients.set n.val x }

def State.port (s : State) (n : ClientId) : Port := s.ports[n.val]
def State.setPort (s : State) (n : ClientId) (x : Port) : State :=
  { s with ports := s.ports.set n.val x }

/-- The read holder of a cursor or of the seam engine (R122). -/
def State.holder (s : State) : ReadHolder → Option ReadRequest
  | .cursor c => s.holders[c.val]
  | .seam => s.seamHolder

def State.setHolder (s : State) (h : ReadHolder) (x : Option ReadRequest) : State :=
  match h with
  | .cursor c => { s with holders := s.holders.set c.val x }
  | .seam => { s with seamHolder := x }

/-- Change one record of a table. -/
def State.modifySource (s : State) (i : SourceId) (g : Source → Source) : State := s.setSource i (g (s.source i))
def State.modifyFrame (s : State) (f : FrameId) (g : Frame → Frame) : State := s.setFrame f (g (s.frame f))
def State.modifyGroup (s : State) (k : GroupId) (g : Group → Group) : State := s.setGroup k (g (s.group k))
def State.modifyCursor (s : State) (c : CursorId) (g : Cursor → Cursor) : State := s.setCursor c (g (s.cursor c))
def State.modifyView (s : State) (v : ViewId) (g : View → View) : State := s.setView v ((s.view v).map g)
def State.modifyHolder (s : State) (h : ReadHolder) (g : ReadRequest → ReadRequest) : State :=
  s.setHolder h ((s.holder h).map g)

/-- The row entry of a frame's map, where the map has that row (R49). -/
def State.rowEntry (s : State) (f : FrameId) (row : Nat) : Option RowEntry := (s.frame f).rowMap[row]?

/-! ### The members of each table, in index order -/

def allSources : List SourceId := [0, 1, 2]
def allClients : List ClientId := [0, 1, 2]
def allCursors : List CursorId := [0, 1, 2, 3, 4, 5]
def allGroups : List GroupId := [0, 1, 2, 3, 4, 5, 6, 7]
def allViews : List ViewId := [0, 1, 2, 3]
def allFrames : List FrameId := List.finRange 24
def allHolders : List ReadHolder := allCursors.map .cursor ++ [.seam]
def allEntries : List EntryId := List.finRange 64
def allPoolRows : List PoolRow := List.finRange 512

/-- A table number as a client sends it, where it names a member of a table of `n` records. -/
def indexOf (n : Nat) (k : Nat) : Option (Fin n) := if h : k < n then some ⟨k, h⟩ else none

/-- Cursor 0 or 1 of port CPn is C2n or C2n+1 (R139). -/
def cursorOf (n : ClientId) (k : Fin 2) : CursorId := ⟨2 * n.val + k.val, by omega⟩

/-- The client that owns a cursor (R139). -/
def ownerOf (c : CursorId) : ClientId := ⟨c.val / 2, by omega⟩

/-! ### Sets of sources and pin holders -/

def setMember {n : Nat} (v : Vector Bool n) (i : Fin n) (b : Bool) : Vector Bool n := v.set i.val b

/-- The number of members. -/
def memberCount {n : Nat} (v : Vector Bool n) : Nat := v.toList.countP id

def anyMember {n : Nat} (v : Vector Bool n) : Bool := v.toList.any id

/-- The number of pin holders (R165). -/
def PinSet.count (p : PinSet) : Nat := memberCount p.explicit + memberCount p.retain

/-- No pin holder is present. -/
def PinSet.isEmpty (p : PinSet) : Bool := !anyMember p.explicit && !anyMember p.retain

/-- The holders that are neither client `n`'s explicit pin nor its own RETAIN cursors (R163). -/
def PinSet.othersThan (p : PinSet) (n : ClientId) : Nat :=
  memberCount (setMember p.explicit n false)
    + memberCount (setMember (setMember p.retain (cursorOf n 0) false) (cursorOf n 1) false)

/-! ### Picture memory: a list of (address, byte), addresses strictly rising. An unlisted address holds no
value of the model's: its content is undefined (R114). -/

/-- The canonical form: addresses strictly rise. No listed entry can equal what an unlisted address reads as,
since an unlisted address reads as no value. -/
def Memory.wf : List Host.Cell → Bool
  | [] => true
  | [_] => true
  | a :: b :: rest => decide (a.1 < b.1) && Memory.wf (b :: rest)

/-- The byte written at an address, if any. -/
def memoryRead (m : List Host.Cell) (a : Nat) : Option Byte :=
  (m.find? (fun c => c.1 == a)).map Prod.snd

/-- The cells of bytes laid from an address on. -/
def cellsFrom : Nat → List Byte → List Host.Cell
  | _, [] => []
  | a, b :: bs => (a, b) :: cellsFrom (a + 1) bs

/-- Store bytes from an address on. -/
def memoryWrite (m : List Host.Cell) (a : Nat) (bytes : List Byte) : List Host.Cell :=
  m.filter (fun c => decide (c.1 < a)) ++ cellsFrom a bytes
    ++ m.filter (fun c => decide (a + bytes.length ≤ c.1))

/-- The byte an address holds: what was written, or the undefined content of this power-on (log 5). -/
def State.memoryByte (s : State) (a : Nat) : Byte :=
  (memoryRead s.memory a).getD (Config.powerOnByte s.powerOns a)

/-- The bytes that memory holds from an address on. -/
def State.memoryBytes (s : State) (a len : Nat) : List Byte :=
  (List.range len).map (fun k => s.memoryByte (a + k))

/-- Slot Fn begins at n × 2 MiB and row r at r × 1,024 bytes into it (R114). -/
def slotBase (f : FrameId) (row : Nat) : Nat := f.val * 2097152 + row * 1024

/-- The pool region begins at 48 MiB; pool row p lies at p × 1,024 bytes into it (R114). -/
def poolBase (p : PoolRow) : Nat := 50331648 + p.val * 1024

end Sys2Proof.Machine
end

