-- ==== Sys2Proof/Machine/Operands.lean ====
section
/-! DEFINITION. The arithmetic of the rules over plain values: widths and periods, sequence distances, folds,
row indexes, rotations, windows, stamps; pixels; and the bytes of a number, a code or a record in a response
(R180, R182). Nothing here reads the state. -/

namespace Sys2Proof.Machine

/-! ### Widths, periods, stamps -/

/-- The columns of a drum class (R31). -/
def drumWidth : DrumClass → Nat
  | .narrow => 896
  | .standard => 1344
  | .wide => 1792

/-- A line's payload in bytes: two pixels to a byte (section 2.1, R114). -/
def drumBytes (d : DrumClass) : Nat := drumWidth d / 2

/-- One line period in milliseconds (R35). -/
def periodMs : LineRate → Nat
  | .lpm60 => 1000
  | .lpm120 => 500
  | .lpm240 => 250

/-- One and a half line periods in milliseconds (R33). -/
def arrivalMs : LineRate → Nat
  | .lpm60 => 1500
  | .lpm120 => 750
  | .lpm240 => 375

/-- Advance a stamp, a day number or a log number by one, wrapping from 65535 to 0. -/
def next16 (n : Nat) : Nat := (n + 1) % 65536

/-- The sequence number after `n`, wrapping from 4095 to 0. -/
def nextSeq (n : Nat) : Nat := (n + 1) % 4096

/-- Add one, sticking at `top`. -/
def stickyNext (top n : Nat) : Nat := if n < top then n + 1 else top

/-! ### Columns -/

/-- Fold a difference of columns into half the width either way, exactly half counting as plus half (R32, R55). -/
def foldOffset (width : Nat) (x : Int) : Int :=
  if ((width / 2 : Nat) : Int) < x then x - width
  else if x ≤ -((width / 2 : Nat) : Int) then x + width
  else x

/-- The reference after an accepted line's tracking step (R32). -/
def trackReference (width trackWindow reference : Nat) (offset : Int) : Nat :=
  if offset.natAbs = 0 ∨ trackWindow < offset.natAbs then reference
  else if 0 < offset then (reference + 1) % width
  else (reference + width - 1) % width

/-- Clamp a rotation to the skew limit with its sign (R55). -/
def clampRotation (skewLimit : Nat) (r : Int) : Int :=
  if skewLimit < r.natAbs then (if 0 < r then (skewLimit : Int) else -(skewLimit : Int)) else r

/-- Insert into an ascending list. -/
def insertAscending (x : Nat) : List Nat → List Nat
  | [] => [x]
  | y :: ys => if x ≤ y then x :: y :: ys else y :: insertAscending x ys

def sortAscending : List Nat → List Nat
  | [] => []
  | x :: xs => insertAscending x (sortAscending xs)

/-- The median of R27: place (n + 1) / 2 of the sorted copy for odd n, place n / 2 for even n, counted from 1. -/
def medianColumn (positions : List Nat) : Nat :=
  let n := positions.length
  let place := if n % 2 = 1 then (n + 1) / 2 else n / 2
  (sortAscending positions).getD (place - 1) 0

/-! ### Sequence and row -/

/-- How far `b` lies ahead of `a`, counted forward modulo 4096 (R33, R54). -/
def seqDistance (a b : Nat) : Nat := (b + 4096 - a % 4096) % 4096

/-- The row of a sequence number, or none where it lies outside the map (R54). -/
def rowOfSequence (g : Geometry) (first sequence : Nat) : Option Nat :=
  let d := seqDistance first sequence
  if d < g.rows then
    match g.direction with
    | .down => some d
    | .up => some (g.rows - 1 - d)
  else none

/-! ### Day and minute -/

/-- The distance between two minutes of the day, counted round midnight (R5). -/
def minuteDistance (m s : Nat) : Nat :=
  let d := if m < s then s - m else m - s
  if d ≤ 1440 - d then d else 1440 - d

/-- The weekday's place from Monday (R180). -/
def weekdayIndex : Weekday → Fin 7
  | .monday => 0
  | .tuesday => 1
  | .wednesday => 2
  | .thursday => 3
  | .friday => 4
  | .saturday => 5
  | .sunday => 6

def weekdayAfter : Weekday → Weekday
  | .monday => .tuesday
  | .tuesday => .wednesday
  | .wednesday => .thursday
  | .thursday => .friday
  | .friday => .saturday
  | .saturday => .sunday
  | .sunday => .monday

/-- The weekday a byte codes (R180), if it is one of the seven. -/
def weekdayOfCode : Nat → Option Weekday
  | 0 => some .monday
  | 1 => some .tuesday
  | 2 => some .wednesday
  | 3 => some .thursday
  | 4 => some .friday
  | 5 => some .saturday
  | 6 => some .sunday
  | _ => none

/-- The current minute (R1). -/
def DayClock.minute (c : DayClock) : Nat := c.second / 60

/-- The second and day a block gets from the clock: second 0 of day 0 while UNSET (R1). -/
def DayClock.time (c : DayClock) : Nat × Nat := if c.isSet then (c.day, c.second) else (0, 0)

/-- The clock one second later (R1). -/
def DayClock.tick (c : DayClock) : DayClock :=
  if c.second + 1 < 86400 then { c with second := c.second + 1 }
  else { c with second := 0, day := next16 c.day, weekday := weekdayAfter c.weekday }

/-! ### Windows (R143) -/

/-- Position `p` moved by `k` rows within the window. -/
def moveInWindow (base length p : Nat) (k : Int) : Nat :=
  base + (((p : Int) - (base : Int) + k) % (length : Int)).toNat

/-- The window's first row for a positive step, its last row for a negative one (R140). -/
def defaultPosition (base length : Nat) (step : Int) : Nat :=
  if 0 < step then base else base + length - 1

/-! ### Pixels -/

/-- The columns of a payload: column 2k in the upper four bits of byte k (section 2.1). -/
def pixelsOf : List Byte → List (BitVec 4)
  | [] => []
  | b :: bs => b.extractLsb' 4 4 :: b.extractLsb' 0 4 :: pixelsOf bs

/-- The payload of columns. -/
def payloadOf : List (BitVec 4) → List Byte
  | a :: b :: rest => (a ++ b) :: payloadOf rest
  | [a] => [a ++ 0#4]
  | [] => []

/-- The line turned so that column c holds column (c + k) modulo its width (R55). -/
def turnPayload (payload : List Byte) (k : Int) : List Byte :=
  let cols := pixelsOf payload
  let n := (k % (cols.length : Int)).toNat
  payloadOf (cols.drop n ++ cols.take n)

/-- The sum of the differences of grey level of two rows, column by column (R108). -/
def rowDifference (a b : List Byte) : Nat :=
  ((pixelsOf a).zipWith (fun x y => if x.toNat < y.toNat then y.toNat - x.toNat else x.toNat - y.toNat)
    (pixelsOf b)).sum

/-! ### Codes (R178, R180) -/

def drumCode : DrumClass → Nat
  | .narrow => 0
  | .standard => 1
  | .wide => 2

def rateCode : LineRate → Nat
  | .lpm60 => 0
  | .lpm120 => 1
  | .lpm240 => 2

def directionCode : Direction → Nat
  | .down => 0
  | .up => 1

def FrameState.code : FrameState → Nat
  | .free => 0
  | .expected => 1
  | .receiving => 2
  | .settling => 3
  | .complete => 4
  | .partialOnly => 5
  | .faulted => 6

def SourceState.code : SourceState → Nat
  | .idle => 0
  | .phasing => 1
  | .receiving => 2
  | .faded => 3
  | .draining => 4
  | .discarding => 5
  | .linkDown => 6

def RowState.code : RowState → Nat
  | .empty => 0
  | .missed => 1
  | .provisional _ => 2
  | .firm _ => 3
  | .damaged _ => 4

def GroupState.code : GroupState → Nat
  | .undefined => 0
  | .gathering => 1
  | .joining => 2
  | .joined => 3

def SeamState.code : SeamState → Nat
  | .none => 0
  | .waiting => 1
  | .queued => 2
  | .searching => 3
  | .found => 4
  | .weak => 5

def Status.code : Status → Nat
  | .ok => 0
  | .busy => 1
  | .check => 2
  | .denied => 3
  | .badRequest => 4
  | .noSuch => 5
  | .conflict => 6
  | .inUse => 7
  | .pinned => 8
  | .noView => 9
  | .rowLost => 10
  | .rowDamaged => 11
  | .notYet => 12
  | .faulted => 13
  | .clockUnset => 14
  | .full => 15
  | .lost => 16

/-- The code of an entry's state: VACANT 0, ACTIVE 1, SUSPENDED 2 (R180). -/
def ScheduleEntry.code (e : ScheduleEntry) : Nat :=
  match e.definition with
  | none => 0
  | some (.active, _) => 1
  | some (.suspended, _) => 2

/-- The kind codes of R128. -/
def ErrorKind.code : ErrorKind → Nat
  | .lineRejected => 1
  | .linkCheck => 2
  | .ringOverrun => 3
  | .frameExhausted => 4
  | .linkLost => 5
  | .writeFailed => 6
  | .writeTimeout => 7
  | .readCorrupt => 8
  | .shadowExhausted => 9
  | .frameFaulted => 10

/-- The class of a kind: ABORT for kinds 6 to 10 (R128). -/
def ErrorKind.isAbort (k : ErrorKind) : Bool := decide (6 ≤ k.code)

/-- The sort and number of an origin (R180). -/
def Origin.code : Origin → Nat × Nat
  | .source i => (0, i.val)
  | .frame f => (1, f.val)
  | .group g => (2, g.val)
  | .client c => (3, c.val)
  | .memory => (4, 0)

/-- The order of origins in a summary: sources, frames, groups, clients, memory (R167). -/
def Origin.rank : Origin → Nat
  | .source i => i.val
  | .frame f => 3 + f.val
  | .group g => 27 + g.val
  | .client c => 35 + c.val
  | .memory => 38

/-- The kind code of a notice, from 1, as an index into a level table from 0 (R167, R168). -/
def NoticeDetail.kindIndex : NoticeDetail → Fin 16
  | .frameBound _ _ => 0
  | .passSettled _ _ => 1
  | .frameEvicted _ => 2
  | .expectedLapsed _ => 3
  | .frameFaulted _ _ => 4
  | .gap _ _ => 5
  | .fade _ _ => 6
  | .sourceEnd _ _ _ => 7
  | .unscheduled _ => 8
  | .viewTorn _ _ => 9
  | .mosaicJoined _ _ => 10
  | .mosaicStale _ _ => 11
  | .cursorLostFrame _ _ _ => 12
  | .cursorLostGroup _ _ _ => 12
  | .errorLogged _ _ => 13
  | .scheduleChanged _ _ => 14
  | .relay _ => 15

/-- The kind code of R167. -/
def NoticeDetail.kindCode (d : NoticeDetail) : Nat := d.kindIndex.val + 1

/-! ### Bytes of a response body (R180, R182) -/

/-- The byte of a number below 256. -/
def byteOf (n : Nat) : Byte := BitVec.ofNat 8 n

/-- A number in `len` bytes, most significant first. -/
def beBytes : Nat → Nat → List Byte
  | 0, _ => []
  | len + 1, n => byteOf (n / 256 ^ len) :: beBytes len n

/-- A field that holds no value: every byte 255. -/
def absentBytes (len : Nat) : List Byte := List.replicate len 255#8

/-- A field that may hold no value. -/
def optBytes (len : Nat) : Option Nat → List Byte
  | none => absentBytes len
  | some n => beBytes len n

/-- A yes, set or on is 1; a no, clear or off is 0. -/
def flagByte (b : Bool) : Byte := if b then 1#8 else 0#8

/-- A signed field in two's complement. -/
def signedByte (i : Int) : Byte := BitVec.ofInt 8 i

/-- A signed field that may hold no value: 128 when absent. -/
def optSignedByte : Option Int → Byte
  | none => 128#8
  | some i => signedByte i

/-- A set with bit k for member k. -/
def setNat : List Bool → Nat
  | [] => 0
  | b :: bs => b.toNat + 2 * setNat bs

/-- Line flags: bit 0 SKEWED, bit 1 UNPHASED, bit 2 FADED. -/
def LineFlags.code (f : LineFlags) : Nat := setNat [f.skewed, f.unphased, f.faded]

/-- Pin holders: bits 0 to 2 the explicit pins, bits 3 to 8 the RETAIN cursors. -/
def PinSet.code (p : PinSet) : Nat := setNat (p.explicit.toList ++ p.retain.toList)

/-- An origin in two bytes: the sort, then the number. -/
def Origin.bytes (o : Origin) : List Byte := [byteOf o.code.1, byteOf o.code.2]

/-- The pending quality of a row in flight: absent unless a write is outstanding (R182). -/
def InFlight.pendingQuality : InFlight → Option Nat
  | .write (some l) => some l.quality
  | .write none => none
  | .copy => none
  | .no => none

/-- The source, pass, quality, rotation and flags bytes of a line. -/
def lineInfoBytes (l : LineInfo) : List Byte :=
  [byteOf l.source.val, byteOf l.pass, byteOf l.quality, signedByte l.rotation, byteOf l.flags.code]

/-- The same bytes where the fields are absent but for the pass. -/
def noLineBytes (pass : Option Nat) : List Byte :=
  [255#8] ++ optBytes 1 pass ++ [255#8, 128#8, 255#8]

/-- The row entry block of an entry as it stands (R50, R182). -/
def RowEntry.report (e : RowEntry) : List Byte :=
  [byteOf e.state.code]
    ++ (match e.state with
        | .provisional l => lineInfoBytes l
        | .firm l => lineInfoBytes l
        | .damaged pass => noLineBytes (some pass)
        | .empty => noLineBytes none
        | .missed => noLineBytes none)
    ++ [flagByte (e.inFlight != .no)]
    ++ optBytes 1 e.inFlight.pendingQuality
    ++ [flagByte e.preserved.isSome, flagByte e.lost]

/-- An entry that has never been written (R49). -/
def RowEntry.fresh : RowEntry := { state := .empty, inFlight := .no, preserved := none, lost := false }

/-- The report of a row a view shows as lost: state 255 and lost 1 (R182), the rest absent (log 16). -/
def lostReport : List Byte := [255#8] ++ noLineBytes none ++ [255#8, 255#8, 255#8, 1#8]

/-- The report of a preserved row whose entry lies in picture memory: PROVISIONAL, preserved 1, its line fields
absent (R151, R182; log 16). -/
def preservedReport : List Byte := [2#8] ++ noLineBytes none ++ [0#8, 255#8, 1#8, 0#8]

/-- The report of a preserved row whose entry has been read from its pool row, from the six bytes the record keeps
of it: state PROVISIONAL, source, pass, quality, rotation, flags (R149; log 16). -/
def preservedLineReport (kept : List Byte) : List Byte := kept ++ [0#8, 255#8, 1#8, 0#8]

/-- The naming block, absent unless the row came from a mosaic section (R182). -/
def namingBytes : Option Naming → List Byte
  | none => absentBytes 4
  | some n => [byteOf n.index, byteOf n.frame.val] ++ beBytes 2 n.row

/-- The four bytes of a notice's detail (R182's third table). -/
def NoticeDetail.bytes (d : NoticeDetail) : List Byte :=
  let pad (l : List Byte) : List Byte := (l ++ [0#8, 0#8, 0#8, 0#8]).take 4
  let lostCode : LostCause → Byte
    | .free => 0#8
    | .faulted => 1#8
    | .viewReleased => 2#8
    | .dissolved => 3#8
  match d with
  | .frameBound source kind => pad [byteOf source.val, match kind with
      | .join => 0#8
      | .rejoin => 1#8
      | .newPass => 2#8
      | .expected => 3#8
      | .fresh => 4#8]
  | .passSettled pass complete => pad [byteOf pass, if complete then 0#8 else 1#8]
  | .frameEvicted source => pad [byteOf source.val]
  | .expectedLapsed entry => pad (optBytes 1 (entry.map Fin.val))
  | .frameFaulted pass code => pad [byteOf pass, byteOf code]
  | .gap frame sequence => pad ([byteOf frame.val] ++ beBytes 2 sequence)
  | .fade frame byMisses => pad (optBytes 1 (frame.map Fin.val) ++ [flagByte byMisses])
  | .sourceEnd frame pass stop => pad [byteOf frame.val, byteOf pass, match stop with
      | .normal => 0#8
      | .lost => 1#8
      | .overrun => 2#8]
  | .unscheduled clockUnset => pad [if clockUnset then 0#8 else 1#8]
  | .viewTorn view row => pad ([byteOf view.val] ++ beBytes 2 row)
  | .mosaicJoined height weak => pad (beBytes 2 height ++ [byteOf weak])
  | .mosaicStale index cause => pad [byteOf index, match cause with
      | .newPass => 0#8
      | .newFrame => 1#8
      | .free => 2#8
      | .faulted => 3#8]
  | .cursorLostFrame cursor frame cause => pad [byteOf cursor.val, 1#8, byteOf frame.val, lostCode cause]
  | .cursorLostGroup cursor group cause => pad [byteOf cursor.val, 2#8, byteOf group.val, lostCode cause]
  | .errorLogged kind filing => pad [byteOf kind.code, match filing with
      | .appended => 0#8
      | .folded => 1#8
      | .dropped => 2#8]
  | .scheduleChanged entry op => pad [byteOf entry.val, match op with
      | .write => 0#8
      | .suspend => 1#8
      | .vacate => 2#8]
  | .relay code => pad [byteOf code]

/-- The notice pair block (R182). -/
def NoticePair.bytes (p : NoticePair) : List Byte :=
  [byteOf p.detail.kindCode] ++ p.origin.bytes ++ p.detail.bytes ++ [byteOf p.count]

/-- The error record block (R182). -/
def ErrorRecord.bytes (r : ErrorRecord) : List Byte :=
  beBytes 2 r.number ++ [byteOf r.kind.code, flagByte r.kind.isAbort] ++ r.origin.bytes
    ++ optBytes 1 (r.frame.map Fin.val) ++ optBytes 2 r.row ++ optBytes 1 r.pass ++ [byteOf r.detail]
    ++ beBytes 3 r.time ++ [byteOf r.repeats, byteOf r.lost, flagByte r.marking]

/-- The schedule fields, 27 bytes (R181): frequencies past the count are 0. -/
def EntryFields.bytes (f : EntryFields) : List Byte :=
  [byteOf f.station] ++ beBytes 2 f.product ++ beBytes 2 f.startMinute ++ [byteOf f.tolerance,
    byteOf f.frequencies.length]
    ++ beBytes 3 (f.frequencies.getD 0 0) ++ beBytes 3 (f.frequencies.getD 1 0)
    ++ beBytes 3 (f.frequencies.getD 2 0) ++ beBytes 3 (f.frequencies.getD 3 0)
    ++ [byteOf (drumCode f.drum), byteOf (rateCode f.rate), byteOf (directionCode f.direction)] ++ beBytes 2 f.rows
    ++ [f.days.setWidth 8] ++ optBytes 1 (f.repeatOf.map Fin.val) ++ [byteOf f.dayShift]

/-- The entry record block, 31 bytes (R182). -/
def ScheduleEntry.bytes (e : ScheduleEntry) : List Byte :=
  [byteOf e.code] ++ optBytes 1 (e.writer.map Fin.val) ++ beBytes 2 e.stamp
    ++ (match e.definition with
        | none => absentBytes 27
        | some (_, f) => f.bytes)

/-- A row item of a READ_NEXT or READ_AT response (R182). -/
def RowItem.bytes (i : RowItem) : List Byte :=
  beBytes 2 i.row ++ [byteOf i.status.code] ++ i.report ++ namingBytes i.naming
    ++ beBytes 2 i.payload.length ++ i.payload

/-- The response frame on the wire (section 11.1): status, tag, length, body, check word. -/
def Response.bytes (r : Response) : List Byte :=
  let front := [byteOf r.status.code, byteOf r.tag] ++ beBytes 2 r.body.length ++ r.body
  front ++ checkBytes (crc16 front)

end Sys2Proof.Machine
end

