-- ==== Sys2Proof/Machine/Flags.lean ====
section
/-! DEFINITION. The flag and grade computations of the rules: line flags, rotation and effective quality, the
merge decision, the grade of a confirmed line, HOLD, coverage counts, verdicts, class bits, scan conditions. -/

namespace Sys2Proof.Machine

/-! ### A line's rotation, flags and effective quality (R55, R56) -/

/-- The unclamped rotation of a line: skew less the stamped reference, folded (R55). -/
def rawRotation (drum : DrumClass) (r : LineRecord) : Int :=
  foldOffset (drumWidth drum) ((r.skew : Int) - (r.reference : Int))

/-- The flags a line carries; SKEWED where the rotation's magnitude exceeds the skew limit (R55, R56). -/
def lineFlags (drum : DrumClass) (skewLimit : Nat) (r : LineRecord) : LineFlags :=
  { skewed := decide (skewLimit < (rawRotation drum r).natAbs), unphased := r.unphased, faded := r.faded }

/-- The penalty of the flags a line carries (R56). -/
def LineFlags.penalty (f : LineFlags) : Nat :=
  (if f.unphased then 32 else 0) + (if f.skewed then 64 else 0) + (if f.faded then 48 else 0)

/-- Link quality less the penalties, floored at 0 (R56). -/
def effectiveQuality (quality : Nat) (f : LineFlags) : Nat := quality - f.penalty

/-- What the entry records of a line when it is written (R55, R56, R59). -/
def lineInfoOf (i : SourceId) (pass skewLimit : Nat) (drum : DrumClass) (r : LineRecord) : LineInfo :=
  { source := i
    pass := pass
    quality := effectiveQuality r.quality (lineFlags drum skewLimit r)
    rotation := clampRotation skewLimit (rawRotation drum r)
    flags := lineFlags drum skewLimit r }

/-! ### The merge decision and the grade of a line (R57, R60) -/

/-- Whether a line of effective quality `q` is written over a row not in flight; otherwise it is merged-out. -/
def mergeWrites (replaceMargin q : Nat) : RowState → Bool
  | .empty => true
  | .missed => true
  | .damaged _ => true
  | .provisional l => decide (l.quality + replaceMargin ≤ q)
  | .firm _ => false

/-- The state a confirmed line gives its row (R60). -/
def gradeLine (firmThreshold : Nat) (l : LineInfo) : RowState :=
  if firmThreshold ≤ l.quality then .firm l else .provisional l

/-- PROVISIONAL or FIRM: the row holds a line (R69). -/
def RowState.isFilled : RowState → Bool
  | .provisional _ => true
  | .firm _ => true
  | .empty => false
  | .missed => false
  | .damaged _ => false

def RowState.isMissed : RowState → Bool
  | .missed => true
  | .empty => false
  | .provisional _ => false
  | .firm _ => false
  | .damaged _ => false

def RowState.isDamaged : RowState → Bool
  | .damaged _ => true
  | .empty => false
  | .missed => false
  | .provisional _ => false
  | .firm _ => false

/-- The pass an entry carries, where its state carries one (R49). -/
def RowState.passOf : RowState → Option Nat
  | .provisional l => some l.pass
  | .firm l => some l.pass
  | .damaged pass => some pass
  | .empty => none
  | .missed => none

/-- The line an entry holds, where it holds one. -/
def RowState.lineOf : RowState → Option LineInfo
  | .provisional l => some l
  | .firm l => some l
  | .empty => none
  | .missed => none
  | .damaged _ => none

/-- The order of R105 by which a composite row takes the better of two entries, the better higher. -/
def RowState.rank : RowState → Nat
  | .firm _ => 4
  | .provisional _ => 3
  | .damaged _ => 2
  | .missed => 1
  | .empty => 0

/-- The adjusted count when a row leaves one state and takes another (R69). -/
def adjustCount (before after : Bool) (n : Nat) : Nat := n + after.toNat - before.toNat

/-- The frame's counts after one row's change of state (R69). -/
def Frame.recount (f : Frame) (before after : RowState) : Frame :=
  { f with
    coverage := adjustCount before.isFilled after.isFilled f.coverage
    missed := adjustCount before.isMissed after.isMissed f.missed
    damaged := adjustCount before.isDamaged after.isDamaged f.damaged }

/-! ### HOLD (R30) -/

/-- The hysteresis setting after a push that leaves `n` records. -/
def hysteresisAfterPush (n : Nat) (h : Bool) : Bool := if 12 ≤ n then true else h

/-- The hysteresis setting after a removal that leaves `n` records. -/
def hysteresisAfterRemoval (n : Nat) (h : Bool) : Bool := if n ≤ 4 then false else h

/-- The HOLD line: asserted while the setting is asserted or a START is held (R30). -/
def Source.holdLine (x : Source) : Bool := x.hysteresis || x.held.isSome

/-- The READY line of a port (R175). -/
def Port.readyLine (p : Port) : Bool :=
  match p.state with
  | .idle => true
  | .done => true
  | .starting => false
  | .executing => false

/-- Whether a client's NOTICE line is to be asserted: a pending pair lies above the threshold (R170). -/
def NoticeClient.noticeDue (c : NoticeClient) : Bool :=
  c.pendingSet.any (fun p => decide (c.threshold < p.level))

/-! ### Verdicts and frame states -/

/-- COMPLETE by its coverage and the complete per-mille (R81). -/
def Frame.meetsComplete (f : Frame) (perMille : Nat) : Bool :=
  match f.geometry with
  | some g => decide (perMille * g.rows ≤ f.coverage * 1000)
  | none => true

/-- COMPLETE or PARTIAL: the frame's pass has settled. -/
def FrameState.isSettled : FrameState → Bool
  | .complete => true
  | .partialOnly => true
  | .free => false
  | .expected => false
  | .receiving => false
  | .settling => false
  | .faulted => false

/-- RECEIVING or SETTLING. -/
def FrameState.isRunning : FrameState → Bool
  | .receiving => true
  | .settling => true
  | .free => false
  | .expected => false
  | .complete => false
  | .partialOnly => false
  | .faulted => false

/-- The states in which a memory error takes part in the marks and can fault the frame (R79, R132). -/
def FrameState.canFault (s : FrameState) : Bool := s.isSettled || s.isRunning

/-! ### Command classes (R177) -/

/-- The eight classes, in the order of the strap pins. -/
inductive CommandClass where
  | read | pin | schedule | frameEdit | mosaic | notice | relay | system
deriving DecidableEq, Repr

def CommandClass.bit : CommandClass → Nat
  | .read => 0
  | .pin => 1
  | .schedule => 2
  | .frameEdit => 3
  | .mosaic => 4
  | .notice => 5
  | .relay => 6
  | .system => 7

/-- The port's mask holds every class listed (R176). -/
def Port.holds (p : Port) (classes : List CommandClass) : Bool := classes.all (fun c => p.mask.getLsbD c.bit)

/-- The class of a RESERVE by its target kind (R157). -/
def reserveClass : TargetKind → CommandClass
  | .entry => .schedule
  | .frame => .frameEdit
  | .group => .mosaic

/-- A yes-or-no byte of a request (R180); a byte that is neither is free (log 7). -/
def yesOfByte (n : Nat) : Bool := if n = 0 then false else if n = 1 then true else Config.yesOfOtherByte n

/-! ### What a reader is shown of a row, and scan conditions (R90, R105, R152) -/

/-- A row as its reader is shown it: an entry as it stands; a row preserved in a pool row; a row lost; or a row
shown EMPTY though no entry stands behind it (R90 test 3, R105). -/
inductive Showing where
  | standing (e : RowEntry)
  | preserved (p : PoolRow)
  | lost
  | blank
deriving DecidableEq, Repr

/-- The ten bytes of the showing as READ_MAP and SCAN report it (R151, R182). -/
def Showing.report : Showing → List Byte
  | .standing e => e.report
  | .preserved _ => preservedReport
  | .lost => lostReport
  | .blank => RowEntry.fresh.report

/-- The conditions of SCAN (R152). -/
inductive ScanCondition where
  | empty | missed | provisional | firm | damaged | notFilled | filled
  | qualityBelow (n : Nat) | qualityAtLeast (n : Nat) | sourceIs (i : SourceId) | flagged | passIs (p : Nat)
deriving DecidableEq, Repr

/-- The condition a code and parameter name, or none where the code is unknown or the parameter out of range. -/
def scanConditionOf (code parameter : Nat) : Option ScanCondition :=
  match code with
  | 0 => some .empty
  | 1 => some .missed
  | 2 => some .provisional
  | 3 => some .firm
  | 4 => some .damaged
  | 5 => some .notFilled
  | 6 => some .filled
  | 7 => if parameter ≤ 255 then some (.qualityBelow parameter) else none
  | 8 => if parameter ≤ 255 then some (.qualityAtLeast parameter) else none
  | 9 => (indexOf 3 parameter).map .sourceIs
  | 10 => some .flagged
  | 11 => if 1 ≤ parameter ∧ parameter ≤ 15 then some (.passIs parameter) else none
  | _ => none

/-- Whether a state satisfies a condition (R152). -/
def ScanCondition.holdsOf (c : ScanCondition) (r : RowState) : Bool :=
  match c with
  | .empty => r.code == 0
  | .missed => r.code == 1
  | .provisional => r.code == 2
  | .firm => r.code == 3
  | .damaged => r.code == 4
  | .notFilled => !r.isFilled
  | .filled => r.isFilled
  | .qualityBelow n => r.lineOf.any (fun l => decide (l.quality < n))
  | .qualityAtLeast n => r.lineOf.any (fun l => decide (n ≤ l.quality))
  | .sourceIs i => r.lineOf.any (fun l => decide (l.source = i))
  | .flagged => r.lineOf.any (fun l => l.flags.skewed || l.flags.unphased || l.flags.faded)
  | .passIs p => r.passOf == some p

/-- Whether a showing satisfies a condition: a preserved row PROVISIONAL and FILLED, a lost row none, a row shown
EMPTY as an EMPTY entry (R152). -/
def ScanCondition.holds (c : ScanCondition) : Showing → Bool
  | .standing e => c.holdsOf e.state
  | .preserved _ => decide (c = .provisional ∨ c = .filled)
  | .lost => false
  | .blank => c.holdsOf .empty

end Sys2Proof.Machine
end

