-- ==== Sys2Proof/Machine/Notices.lean ====
section
/-! DEFINITION. The notice unit (chapter 10): filing, merging, the NOTICE line. -/

namespace Sys2Proof.Machine

/-- The client's record with its NOTICE line recomputed (R170). -/
def NoticeClient.relit (c : NoticeClient) : NoticeClient := { c with line := c.noticeDue }

/-- The order of R171: by kind code, then by origin. -/
def NoticePair.key (p : NoticePair) : Nat := p.detail.kindIndex.val * 64 + p.origin.rank

/-- File a pair in a pending set: merge it into the pair of its kind and origin, or add it in order (R169). -/
def filePair (p : NoticePair) : List NoticePair → List NoticePair
  | [] => [p]
  | q :: qs =>
    if p.key < q.key then p :: q :: qs
    else if p.key = q.key then { q with detail := p.detail, count := stickyNext 255 q.count } :: qs
    else q :: filePair p qs

/-- Offer a notice to one client: not filed at level 0, otherwise filed at the client's level (R169). -/
def NoticeClient.offer (c : NoticeClient) (origin : Origin) (d : NoticeDetail) : NoticeClient :=
  let level := c.levels[d.kindIndex.val]
  if level = 0 then c
  else { c with pendingSet := filePair { origin := origin, detail := d, level := level, count := 1 } c.pendingSet }.relit

/-- Offer a notice to client `n` alone (R173). -/
def State.offerTo (s : State) (n : ClientId) (origin : Origin) (d : NoticeDetail) : State :=
  s.setClient n ((s.client n).offer origin d)

/-- Raise a notice: NU offers it to each of the three clients (R167). -/
def State.raise (s : State) (origin : Origin) (d : NoticeDetail) : State :=
  allClients.foldl (fun s n => s.offerTo n origin d) s

/-- A client's pending set with each pair at the level the table now gives its kind, a pair whose kind has level
0 removed (R168). -/
def relevel (levels : Vector Nat 16) (l : List NoticePair) : List NoticePair :=
  (l.map (fun p => { p with level := levels[p.detail.kindIndex.val] })).filter (fun p => decide (p.level ≠ 0))

/-- The pending set emptied and the line released (R174). -/
def NoticeClient.emptied (c : NoticeClient) : NoticeClient := { c with pendingSet := [] }.relit

end Sys2Proof.Machine
end

