-- ==== Sys2Proof/Machine/Errors.lean ====
section
/-! DEFINITION. Fault containment's error queue (chapter 7): folding, appending, dropping, ERROR_LOGGED. The
marks and the escalation of memory errors, which reach the frame lifecycle unit, are in Machine/Faults.lean. -/

namespace Sys2Proof.Machine

/-- What a block hands FC (R128): FC adds class, time and log number. -/
structure ErrorReport where
  kind   : ErrorKind
  origin : Origin
  frame  : Option FrameId
  row    : Option Nat
  pass   : Option Nat
  detail : Nat
deriving DecidableEq, Repr

/-- The error folds into the record: same kind, origin and frame (R129). -/
def ErrorRecord.takesFold (r : ErrorRecord) (e : ErrorReport) : Bool :=
  decide (r.kind = e.kind ∧ r.origin = e.origin ∧ r.frame = e.frame)

/-- The case of R129 that applies. -/
def filingOf (errors : List ErrorRecord) (e : ErrorReport) : Filing :=
  match errors.getLast? with
  | some r =>
    if r.takesFold e then .folded else if errors.length < 8 then .appended else .dropped
  | none => .appended

/-- Change the newest record. -/
def modifyNewest (g : ErrorRecord → ErrorRecord) : List ErrorRecord → List ErrorRecord
  | [] => []
  | [r] => [g r]
  | r :: r' :: rest => r :: modifyNewest g (r' :: rest)

/-- The record a new error makes (R127, R129). -/
def State.newRecord (s : State) (e : ErrorReport) (marking : Bool) : ErrorRecord where
  number := s.logCounter
  kind := e.kind
  origin := e.origin
  frame := e.frame
  row := e.row
  pass := e.pass
  detail := e.detail
  time := s.clock.time.2
  repeats := 0
  lost := 0
  marking := marking

/-- The newest record takes a fold: its repeats rise, and it becomes marking where the error set a mark (R129). -/
def foldNewest (marking : Bool) (errors : List ErrorRecord) : List ErrorRecord :=
  modifyNewest (fun r => { r with repeats := stickyNext 255 r.repeats, marking := r.marking || marking }) errors

/-- The newest record counts a dropped error (R129, R130). -/
def dropOnNewest (errors : List ErrorRecord) : List ErrorRecord :=
  modifyNewest (fun r => { r with lost := stickyNext 255 r.lost }) errors

/-- The queue after an error is filed; `marking` says that the error sets a memory-error mark (R129). -/
def State.enqueueError (s : State) (e : ErrorReport) (marking : Bool) : State :=
  match filingOf s.errors e with
  | .folded => { s with errors := foldNewest marking s.errors }
  | .appended => { s with errors := s.errors ++ [s.newRecord e marking], logCounter := next16 s.logCounter }
  | .dropped => { s with errors := dropOnNewest s.errors }

/-- File an error by R129 and raise its ERROR_LOGGED (R131). -/
def State.fileError (s : State) (e : ErrorReport) (marking : Bool) : State :=
  (s.enqueueError e marking).raise e.origin (.errorLogged e.kind (filingOf s.errors e))

/-- File an error that takes no part in the marks: every kind but the memory errors (R128). -/
def State.logError (s : State) (e : ErrorReport) : State := s.fileError e false

/-- When a frame becomes FREE, every record that names its slot ceases to be marking (R132). -/
def State.unmarkRecords (s : State) (f : FrameId) : State :=
  { s with errors := s.errors.map (fun r => if r.frame = some f then { r with marking := false } else r) }

end Sys2Proof.Machine
end

