-- ==== Sys2Proof/Machine/Ports.lean ====
section
/-! DEFINITION. Client port logic (chapter 11): taking a request frame, answering it, reading the response. -/

namespace Sys2Proof.Machine

/-- The owning block answers: the buffer takes the response with the request's tag, the port becomes DONE and the
busy tag is forgotten (R175). -/
def State.answer (s : State) (n : ClientId) (status : Status) (body : List Byte) : State :=
  s.setPort n { s.port n with
    state := .done, busyTag := none
    buffer := some { status := status, tag := (s.port n).tag, body := body } }

/-- A frame accepted in IDLE or DONE: the buffer is emptied and the port executes the command (R175). -/
def State.beginCommand (s : State) (n : ClientId) (tag : Nat) : State :=
  s.setPort n { s.port n with state := .executing, buffer := none, tag := tag }

/-- A frame written in EXECUTING: nothing is done but that its tag is remembered as the busy tag (R175); a frame
without a tag leaves a free one (log 6). -/
def State.answerBusy (s : State) (n : ClientId) (tag : Option Nat) : State :=
  match tag with
  | some t => s.setPort n { s.port n with busyTag := some t }
  | none =>
    { s.setPort n { s.port n with busyTag := some (Config.tagOfTaglessFrame s.freeDraws) } with
      freeDraws := s.freeDraws + 1 }

/-- A client command at its port (R175, R176): discarded in STARTING, BUSY in EXECUTING, DENIED without its class,
and otherwise carried out by `run`, which answers it now or when its last row is read. -/
def State.request (s : State) (n : ClientId) (tag : Nat) (classes : List CommandClass)
    (run : State → State) : State :=
  match (s.port n).state with
  | .starting => s
  | .executing => s.answerBusy n (some tag)
  | .idle =>
    if (s.port n).holds classes then run (s.beginCommand n tag)
    else (s.beginCommand n tag).answer n .denied []
  | .done =>
    if (s.port n).holds classes then run (s.beginCommand n tag)
    else (s.beginCommand n tag).answer n .denied []

/-- The frame a client reads out of a port, by the port's state (R175). -/
def Port.responseShown (p : Port) : Response :=
  match p.state with
  | .starting => { status := .busy, tag := 0, body := [] }
  | .executing => { status := .busy, tag := p.busyTag.getD p.tag, body := [] }
  | .idle => p.buffer.getD { status := .noSuch, tag := 0, body := [] }
  | .done => p.buffer.getD { status := .noSuch, tag := 0, body := [] }

/-- PORT_STARTUP_DONE: 50 ms after the reset pin is released each port becomes IDLE (R175). -/
def execPortStartupDone (s : State) : Host.Outcome State Fault Refusal :=
  .next (allClients.foldl (fun s n =>
    if (s.port n).state = .starting then s.setPort n { s.port n with state := .idle } else s) s)

/-- REQUEST_WHILE_BUSY: a frame written while the port is EXECUTING (R175; in another state the command names no
event, log 2). -/
def execRequestWhileBusy (port : ClientId) (tag : Option Nat) (s : State) :
    Host.Outcome State Fault Refusal :=
  .next (if (s.port port).state = .executing then s.answerBusy port tag else s)

/-- REQUEST_REFUSED: a frame that fails its length, check word, code or form (R176), met by the port's state
first (R175). The response carries the tag received, or 0 for a frame shorter than two bytes. -/
def execRequestRefused (port : ClientId) (tag : Option Nat) (refusal : FrameRefusal) (s : State) :
    Host.Outcome State Fault Refusal :=
  let refuse : State :=
    (s.beginCommand port (tag.getD 0)).answer port
      (match refusal with | .check => .check | .badRequest => .badRequest) []
  .next (match (s.port port).state with
    | .starting => s
    | .executing => s.answerBusy port tag
    | .idle => refuse
    | .done => refuse)

/-- RESPONSE_READ: the client reads a response frame; the buffer and the port's state stay (R175). -/
def execResponseRead (port : ClientId) (s : State) : Host.Outcome State Fault Refusal :=
  .next (s.setPort port { s.port port with lastRead := some (s.port port).responseShown })

/-- FRAME_WRITTEN_WHILE_STARTING: the frame is discarded and gets no response (R175). -/
def execFrameWrittenWhileStarting (_port : ClientId) (s : State) : Host.Outcome State Fault Refusal :=
  .next s

end Sys2Proof.Machine
end

