-- ==== Sys2Proof/Machine/Controller.lean ====
section
/-! DEFINITION. The picture memory controller (chapter 6): records and check words, the posted write queue, the
read holders, the arbiter, and what the controller does when a frame goes away. -/

namespace Sys2Proof.Machine

/-! ### Row records (R114, R115; their bytes log 8) -/

/-- The identity of a slot row: its slot number and row number (R115). -/
def slotIdentity (f : FrameId) (row : Nat) : List Byte := byteOf f.val :: beBytes 2 row

/-- The identity of a pool row: the pool marker and the pool row number (R115). -/
def poolIdentity (p : PoolRow) : List Byte := Config.poolMarker :: beBytes 2 p.val

/-- The preserved entry as a pool row keeps it: state PROVISIONAL with its line (R114). -/
def preservedBytes (l : LineInfo) : List Byte := 2#8 :: lineInfoBytes l

/-- The record of a slot row (R114, R115). -/
def slotRecord (f : FrameId) (row : Nat) (payload : List Byte) : List Byte :=
  payload ++ checkBytes (crc16 (slotIdentity f row ++ payload))

/-- The record of a pool row, `kept` the bytes of its preserved entry (R114, R115). -/
def poolRecord (p : PoolRow) (payload kept : List Byte) : List Byte :=
  payload ++ checkBytes (crc16 (poolIdentity p ++ payload ++ kept)) ++ kept

/-- The check word test on a slot record of the width asked for (R115). -/
def slotRecordRight (f : FrameId) (row : Nat) (d : DrumClass) (bytes : List Byte) : Bool :=
  bytes == slotRecord f row (bytes.take (drumBytes d)) && bytes.length == drumBytes d + 2

/-- The check word test on a pool record of the width asked for (R115). -/
def poolRecordRight (p : PoolRow) (d : DrumClass) (bytes : List Byte) : Bool :=
  bytes == poolRecord p (bytes.take (drumBytes d)) (bytes.drop (drumBytes d + 2))
    && bytes.length == drumBytes d + 8

/-- The record memory holds for a read request. -/
def State.heldRecord (s : State) (r : ReadRequest) : List Byte :=
  match r.pool with
  | none => s.memoryBytes (slotBase r.slot r.row) (drumBytes r.drum + 2)
  | some p => s.memoryBytes (poolBase p) (drumBytes r.drum + 8)

/-- The check word test on the bytes that came back for a request (R115, R122). -/
def ReadRequest.checks (r : ReadRequest) (bytes : List Byte) : Bool :=
  match r.pool with
  | none => slotRecordRight r.slot r.row r.drum bytes
  | some p => poolRecordRight p r.drum bytes

/-! ### Head states that wait on the controller (R51) -/

/-- A place has been freed: every head that was WAITING becomes READY (R51, R116). -/
def State.readyWaiting (s : State) : State :=
  { s with sources := s.sources.map (fun x => if x.head = .waiting then { x with head := .ready } else x) }

/-- A row has left flight: every head stalled on it becomes READY (R51, R58). -/
def State.readyStalled (s : State) (f : FrameId) (row : Nat) : State :=
  { s with sources := s.sources.map (fun x => if x.head = .stalled f row then { x with head := .ready } else x) }

/-! ### The posted write queue (R116) -/

/-- All 8 places are held. -/
def State.queueFull (s : State) : Bool := decide (8 ≤ s.writeQueue.length)

/-- Post an operation into a free place, behind those posted before it. -/
def State.post (s : State) (o : WriteOp) : State := { s with writeQueue := s.writeQueue ++ [o] }

/-- The ISSUED operation of an issue number. -/
def State.issuedOp (s : State) (n : Nat) : Option WriteOp := s.writeQueue.find? (fun o => o.issued == some n)

/-- The ISSUED operation of an issue number, where memory can still answer it: it answers in the order of issue,
so none before one it has answered (R117; log 9). -/
def State.answerableOp (s : State) (n : Nat) : Option WriteOp :=
  if s.answerFloor ≤ n then s.issuedOp n else none

/-- Memory has reported on operation `n`; operations issued before it will not be reported on (R117, log 9). -/
def State.answered (s : State) (n : Nat) : State :=
  { s with answerFloor := n + 1, late := s.late.filter (fun l => decide (n < l.issued)) }

/-- An operation returns: its place is freed (R116, R119). -/
def State.retireOp (s : State) (n : Nat) : State :=
  { s with writeQueue := s.writeQueue.filter (fun o => o.issued != some n) }.readyWaiting

/-- An operation or read that returned by its timer, which memory may still report (R119, R123). -/
def State.rememberLate (s : State) (n : Nat) (o : Option WriteOp) : State :=
  if s.answerFloor ≤ n then { s with late := s.late ++ [{ issued := n, op := o }] } else s

/-- Memory carries an operation out: the store of R120, or the read and store of R121. -/
def State.storeRecord (s : State) (o : WriteOp) : State :=
  match o.kind with
  | .rowWrite payload =>
    { s with memory := memoryWrite s.memory (slotBase o.slot o.row) (slotRecord o.slot o.row payload) }
  | .rowCopy p l =>
    let payload := s.memoryBytes (slotBase o.slot o.row) (drumBytes o.drum)
    { s with memory := memoryWrite s.memory (poolBase p) (poolRecord p payload (preservedBytes l)) }

/-- PE marks every outstanding operation of a frame stale (R66). -/
def State.staleOps (s : State) (f : FrameId) : State :=
  { s with writeQueue := s.writeQueue.map (fun o => if o.slot = f then { o with stale := true } else o) }

/-- Every UNISSUED operation for the slot is removed and its place freed (R125). -/
def State.removeUnissued (s : State) (f : FrameId) : State :=
  if s.writeQueue.any (fun o => o.slot == f && o.issued.isNone) then
    { s with writeQueue := s.writeQueue.filter (fun o => !(o.slot == f && o.issued.isNone)) }.readyWaiting
  else s

/-! ### Read holders (R122, R124, R125) -/

/-- A read is placed in a holder, WAITING (R122). -/
def State.placeRead (s : State) (h : ReadHolder) (slot : FrameId) (row : Nat) (drum : DrumClass)
    (pool : Option PoolRow) : State :=
  let r : ReadRequest :=
    { slot := slot, row := row, drum := drum, pool := pool, issued := none, fate := .normal, abandoned := false,
      viewGone := false }
  s.setHolder h (some r)

/-- The requester of a holder's read has left; the answer will be discarded on arrival (R122). -/
def State.abandonRead (s : State) (h : ReadHolder) : State :=
  s.modifyHolder h (fun r => { r with abandoned := true })

/-- The command a removed read served takes its row anew (R145, R150); a cursor of the frame itself has been made
LOST before, so only a composite row's command is left here. -/
def State.retakeRow (s : State) : ReadHolder → State
  | .cursor c => s.modifyCursor c (fun x => { x with job := x.job.map (fun j => { j with phase := .retake }) })
  | .seam => s

/-- Mark one read, WAITING reads being removed with their answer NO_SUCH or FAULTED (R124, R125). -/
def State.markRead (s : State) (f : FrameId) (fate : ReadFate) (h : ReadHolder) : State :=
  match s.holder h with
  | none => s
  | some r =>
    if r.slot ≠ f then s
    else if r.issued.isNone then (s.setHolder h none).retakeRow h
    else if r.fate = .vanished then s
    else s.modifyHolder h (fun r => { r with fate := fate })

/-- A frame has become FREE: its reads vanish (R124). -/
def State.vanishReads (s : State) (f : FrameId) : State :=
  allHolders.foldl (fun s h => s.markRead f .vanished h) s

/-- A frame has become FAULTED: its reads are marked faulted; one that vanished before stays so (R124, R125). -/
def State.faultReads (s : State) (f : FrameId) : State :=
  allHolders.foldl (fun s h => s.markRead f .faulted h) s

/-- A read has returned: its holder is empty (R122). -/
def State.emptyHolder (s : State) (h : ReadHolder) : State := s.setHolder h none

/-! ### The arbiter (R117, R118) -/

/-- Issue the oldest UNISSUED operation of the queue. -/
def issueOldest (n : Nat) : List WriteOp → List WriteOp
  | [] => []
  | o :: os => if o.issued.isNone then { o with issued := some n } :: os else o :: issueOldest n os

/-- The holder has a read WAITING. -/
def State.readWaiting (s : State) (h : ReadHolder) : Bool :=
  match s.holder h with
  | some r => r.issued.isNone
  | none => false

/-- The cursors in cyclic order from the one named. -/
def cursorsFrom (c : CursorId) : List CursorId := [c, c + 1, c + 2, c + 3, c + 4, c + 5]

/-- Issue a holder's read: it is OUTSTANDING, its timer running. -/
def State.issueRead (s : State) (h : ReadHolder) : State :=
  { s.modifyHolder h (fun r => { r with issued := some s.issueCount }) with issueCount := s.issueCount + 1 }

/-- What the arbiter grants: the write class, then the client read class from the read pointer, then the seam
read class (R117, R118). -/
def State.grant (s : State) : State :=
  if s.writeQueue.any (fun o => o.issued.isNone) then
    { s with writeQueue := issueOldest s.issueCount s.writeQueue, issueCount := s.issueCount + 1 }
  else
    match (cursorsFrom s.readPointer).find? (fun c => s.readWaiting (.cursor c)) with
    | some c => { s.issueRead (.cursor c) with readPointer := c + 1 }
    | none => if s.readWaiting .seam then s.issueRead .seam else s

/-- ARBITER_GRANT: the interface is free and grants one operation, where one waits (R117; log 11). -/
def execArbiterGrant (s : State) : Host.Outcome State Fault Refusal := .next s.grant

end Sys2Proof.Machine
end

