-- ==== Sys2Proof/Machine/SourceOps.lean ====
section
/-! DEFINITION. The source channel operations that several events share (chapter 2): timers, markers, the ring,
HOLD hysteresis, detaching, and the fault of the bound frame. -/

namespace Sys2Proof.Machine

/-- The line-period and fade timers stopped. -/
def Source.stopTimers (x : Source) : Source := { x with linePeriodTimer := none, fadeTimer := none }

/-- A record pushed at the ring's tail, HOLD recomputed (R29, R30). -/
def Source.push (x : Source) (r : RingRecord) : Source :=
  { x with ring := x.ring ++ [r], hysteresis := hysteresisAfterPush (x.ring.length + 1) x.hysteresis }

/-- The head removed, HOLD recomputed (R29, R30). -/
def Source.removeHead (x : Source) : Source :=
  { x with ring := x.ring.tail, hysteresis := hysteresisAfterRemoval (x.ring.length - 1) x.hysteresis }

/-- The stream ends: a STOP marker is pushed, the timers stop, the source drains (R26, R38, R39, R40). -/
def Source.endStream (x : Source) (e : StopEnd) : Source :=
  { (x.push (.marker e)).stopTimers with state := .draining }

/-- What a detached source no longer holds (R41, R43). -/
def Source.unbind (x : Source) : Source :=
  { x.stopTimers with binding := none, firstSeq := none, expectedSeq := none }

/-- The stream in progress: PHASING, RECEIVING or FADED. -/
def SourceState.inStream : SourceState → Bool
  | .phasing => true
  | .receiving => true
  | .faded => true
  | .idle => false
  | .draining => false
  | .discarding => false
  | .linkDown => false

/-- One more line received (R47). -/
def Source.countReceived (x : Source) : Source :=
  { x with counters := { x.counters with received := stickyNext 65535 x.counters.received } }

/-- One more PHASE dropped in DISCARDING (R16; log 37). -/
def Source.countPhase (x : Source) : Source :=
  { x with counters := { x.counters with phases := stickyNext 65535 x.counters.phases } }

/-- A line was placed (R40). -/
def Source.countPlaced (x : Source) : Source :=
  { x with rejections := 0, counters := { x.counters with placed := stickyNext 65535 x.counters.placed } }

/-- A line was merged-out (R40). -/
def Source.countMergedOut (x : Source) : Source :=
  { x with rejections := 0, counters := { x.counters with mergedOut := stickyNext 65535 x.counters.mergedOut } }

/-- A line was rejected; the count of consecutive rejections sticks at 8 (R40). -/
def Source.countRejected (x : Source) : Source :=
  { x with
    rejections := stickyNext 8 x.rejections
    counters := { x.counters with rejected := stickyNext 65535 x.counters.rejected } }

/-- Eight consecutive rejections end the stream (R40). -/
def Source.endIfRejected (x : Source) : Source :=
  if x.rejections = 8 ∧ x.state.inStream = true then x.endStream .overrun else x

/-- The frame and pass a source names in an error (R128). -/
def Source.boundFrame (x : Source) : Option FrameId := x.binding.map StreamBinding.frame
def Source.boundPass (x : Source) : Option Nat := x.binding.map StreamBinding.pass

/-- The state a fault of the bound frame sends the source to (R43). -/
def SourceState.afterFault : SourceState → SourceState
  | .phasing => .discarding
  | .receiving => .discarding
  | .faded => .discarding
  | .draining => .idle
  | .idle => .idle
  | .discarding => .discarding
  | .linkDown => .linkDown

/-- The source's record after its bound frame has faulted: ring emptied, head READY, unbound (R43, R51). -/
def Source.faulted (x : Source) : Source :=
  { x.unbind with
    ring := [], head := .ready, hysteresis := hysteresisAfterRemoval 0 x.hysteresis
    state := x.state.afterFault }

/-- FLU tells a source that its bound frame has faulted; it raises SOURCE_END with end lost (R43). A held START is
taken at the end of the event (log 12). -/
def State.sourceFaulted (s : State) (i : SourceId) : State :=
  match (s.source i).binding with
  | none => s
  | some b => (s.modifySource i Source.faulted).raise (.source i) (.sourceEnd b.frame b.pass .lost)

end Sys2Proof.Machine
end

