-- ==== Sys2Proof/Machine/Views.lean ====
section
/-! DEFINITION. Cursors' holds on frames (R153, R154) and previous-generation views and the shadow pool (R88 to
R93): what a lost cursor gives up, and what a released view gives back. -/

namespace Sys2Proof.Machine

/-! ### Cursors -/

/-- The fields of an OPEN cursor. -/
def Cursor.openFields (x : Cursor) : Option CursorFields :=
  match x.slot with
  | .opened k => some k
  | .closed => none
  | .lost _ => none

/-- The cursor is OPEN and attached to frame `f`, in either generation. -/
def Cursor.onFrame (x : Cursor) (f : FrameId) : Bool :=
  x.openFields.any (fun k => decide (k.attachment = .current f ∨ k.attachment = .previous f))

/-- The cursor is OPEN and attached to frame `f` through PREVIOUS. -/
def Cursor.onPrevious (x : Cursor) (f : FrameId) : Bool :=
  x.openFields.any (fun k => decide (k.attachment = .previous f))

/-- The cursor is OPEN and attached to group `g`. -/
def Cursor.onGroup (x : Cursor) (g : GroupId) : Bool :=
  x.openFields.any (fun k => decide (k.attachment = .group g))

/-- The cursor is OPEN on group `g` with RETAIN. -/
def Cursor.retainsGroup (x : Cursor) (g : GroupId) : Bool :=
  x.openFields.any (fun k => decide (k.attachment = .group g) && k.retain)

/-- A cursor joins or leaves a frame's pin holders (R153). -/
def Frame.setRetain (f : Frame) (c : CursorId) (b : Bool) : Frame :=
  { f with pins := { f.pins with retain := setMember f.pins.retain c b } }

/-- The cursor leaves every pin holder set it belongs to (R153). -/
def State.unpinCursor (s : State) (c : CursorId) : State :=
  { s with frames := s.frames.map (fun f => f.setRetain c false) }

/-- The frames an attachment holds: the frame, or the bound frame of every section (R153). -/
def State.attachedFrames (s : State) : Attachment → List FrameId
  | .current f => [f]
  | .previous f => [f]
  | .group g => (s.group g).sections.filterMap MosaicSection.frame

/-- The cursor joins the pin holders of what it is attached to (R153). -/
def State.pinCursor (s : State) (c : CursorId) (a : Attachment) : State :=
  (s.attachedFrames a).foldl (fun s f => s.modifyFrame f (fun x => x.setRetain c true)) s

/-- The command being carried out on a cursor is cut off and answered with no items (R154, R155). -/
def State.cutJob (s : State) (c : CursorId) (status : Status) : State :=
  match (s.cursor c).job with
  | none => s
  | some _ => (s.modifyCursor c (fun x => { x with job := none })).answer (ownerOf c) status []

/-- CURSOR_LOST's detail (R154). -/
def lostDetail (c : CursorId) (cause : LostCause) : Attachment → NoticeDetail
  | .current f => .cursorLostFrame c f cause
  | .previous f => .cursorLostFrame c f cause
  | .group g => .cursorLostGroup c g cause

/-- An OPEN cursor becomes LOST (R154): its pins end, its command is answered LOST, its read's answer will be
discarded, and CURSOR_LOST is raised with origin its owner. -/
def State.loseCursor (s : State) (c : CursorId) (cause : LostCause) : State :=
  match (s.cursor c).openFields with
  | none => s
  | some k =>
    ((((s.unpinCursor c).cutJob c .lost).abandonRead (.cursor c)).modifyCursor c
      (fun x => { x with slot := .lost k })).raise (.client (ownerOf c)) (lostDetail c cause k.attachment)

/-- Every cursor that satisfies `p` becomes LOST. DESIGN CHOICE (log 32): in index order, where R78, R99 and R154 give
none; the last of a client's is the one whose detail its merged CURSOR_LOST pair keeps. -/
def State.loseCursors (s : State) (p : Cursor → Bool) (cause : LostCause) : State :=
  allCursors.foldl (fun s c => if p (s.cursor c) then s.loseCursor c cause else s) s

/-! ### Views and the pool -/

/-- A row entry when its frame's view is released (R92). -/
def RowEntry.viewReleased (e : RowEntry) : RowEntry := { e with preserved := none, lost := false }

/-- A pool read for a row of frame `f`, once the frame's view is released: it finds no view when it returns, whether or
not the view still held the pool row (R122). A frame has one view at most, so the read was placed through this one or
through one released before it. -/
def ReadRequest.whenViewGone (r : ReadRequest) (f : FrameId) : ReadRequest :=
  if r.slot = f ∧ r.pool.isSome then { r with viewGone := true } else r

/-- Every pool read placed through the view of frame `f` finds no view when it returns (R122). -/
def State.markViewGone (s : State) (f : FrameId) : State :=
  allHolders.foldl (fun s h => s.modifyHolder h (fun r => r.whenViewGone f)) s

/-- Release the frame's view, if it has one (R92): pool rows back to the free list, preserved and lost cleared in
the map, cursors still attached LOST with `cause`, the slot free. The stamp is the event's. -/
def State.releaseView (s : State) (f : FrameId) (cause : LostCause) : State :=
  match (s.frame f).view with
  | none => s
  | some v =>
    let s1 := s.markViewGone f
    let s2 : State := { s1 with pool := s1.pool.map (fun h => if h.any (fun k => k.view == v) then none else h) }
    let s3 := s2.modifyFrame f (fun x => { x with rowMap := x.rowMap.map RowEntry.viewReleased })
    let s4 := s3.loseCursors (fun c => c.onPrevious f) cause
    (s4.setView v none).modifyFrame f (fun x => { x with view := none })

/-- The change stamp advances by one (R77). -/
def Frame.stamped (f : Frame) : Frame := { f with stamp := next16 f.stamp }

/-- A PREVIOUS cursor attaches to the frame (R91). -/
def State.attachPrevious (s : State) (f : FrameId) : State :=
  match (s.frame f).view with
  | none => s
  | some v => s.modifyView v (fun x => { x with cursors := x.cursors + 1 })

/-- A PREVIOUS cursor detaches: the view's count falls, and a view whose opening pass has settled is released at
0, the frame's stamp advancing (R91). DEDUCED (log 39), unsafe: the stamp advances (R77, R91, R92) also where the detach is a
PORT_RESET's, of which R156 says that it leaves every stamp as it is. -/
def State.detachPrevious (s : State) (f : FrameId) : State :=
  match (s.frame f).view with
  | none => s
  | some v =>
    let s1 := s.modifyView v (fun x => { x with cursors := x.cursors - 1 })
    if (s1.view v).any (fun x => x.cursors == 0) && (s1.frame f).state.isSettled then
      (s1.releaseView f .viewReleased).modifyFrame f Frame.stamped
    else s1

/-- The lowest free pool row (R93). -/
def State.freePoolRow (s : State) : Option PoolRow := allPoolRows.find? (fun p => (s.poolRow p).isNone)

/-- FLU gives a pool row to the view for a frame and row (R93). -/
def State.givePoolRow (s : State) (p : PoolRow) (v : ViewId) (f : FrameId) (row : Nat) : State :=
  (s.setPoolRow p (some { view := v, frame := f, row := row })).modifyView v (fun x => { x with held := x.held + 1 })

/-- A pool row is given back, where the pool map still records it for this frame and row; a view released in the
meantime has already returned it (R65, R92, R93; log 15). -/
def State.returnPoolRow (s : State) (p : PoolRow) (f : FrameId) (row : Nat) : State :=
  match s.poolRow p with
  | none => s
  | some h =>
    if h.frame = f ∧ h.row = row then
      (s.setPoolRow p none).modifyView h.view (fun x => { x with held := x.held - 1 })
    else s

/-- The lowest free view slot (R89). -/
def State.freeView (s : State) : Option ViewId := allViews.find? (fun v => (s.view v).isNone)

/-- Open a view of the frame on its old pass, if a view slot is free (R89). -/
def State.openView (s : State) (f : FrameId) : State :=
  match s.freeView with
  | none => s
  | some v =>
    (s.setView v (some { frame := f, generation := (s.frame f).pass, torn := false, held := 0, cursors := 0 })).modifyFrame f
      (fun x => { x with view := some v })

end Sys2Proof.Machine
end

