-- ==== Sys2Proof/Machine/Mosaic.lean ====
section
/-! DEFINITION. The mosaic unit (chapter 5): sections and their frames, group states, the composite's layout, the
seam job queue. An argument `before` is the state at the start of the event that MU takes, from which a group's
stamp advances once however often the event changes its state (R97). -/

namespace Sys2Proof.Machine

/-! ### Layout (R97, R104) -/

/-- A section's rows: its bound frame's while it has one, its nominal rows otherwise (R97). -/
def State.sectionRows (s : State) (x : MosaicSection) : Nat :=
  match x.frame with
  | none => x.nominal
  | some f => ((s.frame f).geometry.map Geometry.rows).getD x.nominal

/-- The top of a section, given the first composite row below the section above it (R104). -/
def MosaicSection.topBelow (x : MosaicSection) (below : Int) : Int :=
  match x.seam with
  | none => below
  | some m => below - m.overlap + m.adjustment

/-- The tops of sections laid from composite row `below` on (R104). -/
def State.topsFrom (s : State) : Int → List MosaicSection → List Int
  | _, [] => []
  | below, x :: rest => x.topBelow below :: s.topsFrom (x.topBelow below + s.sectionRows x) rest

/-- The first composite row below the last section (R104). -/
def State.heightFrom (s : State) : Int → List MosaicSection → Int
  | below, [] => below
  | below, x :: rest => s.heightFrom (x.topBelow below + s.sectionRows x) rest

/-- The tops of a group's sections (R104). -/
def State.tops (s : State) (g : GroupId) : List Int := s.topsFrom 0 (s.group g).sections

/-- The group's composite height is recomputed (R104). -/
def State.recomputeHeight (s : State) (g : GroupId) : State :=
  s.modifyGroup g (fun x => { x with height := (s.heightFrom 0 x.sections).toNat })

/-- The overlap a section shares with the one above it, 0 where there is none. -/
def overlapAt (l : List MosaicSection) (k : Nat) : Nat := ((l[k]?.bind MosaicSection.seam).map Seam.overlap).getD 0

/-- A section's minimum rows (R98). -/
def minimumRows (l : List MosaicSection) (k : Nat) : Nat :=
  if l.length = 1 then 1 else 24 + overlapAt l k + overlapAt l (k + 1)

/-! ### Seams and the job queue (R106, R110) -/

/-- Seam `k` of a group. -/
def State.seam (s : State) (g : GroupId) (k : Nat) : Option Seam := (s.group g).sections[k]?.bind MosaicSection.seam

def State.modifySeam (s : State) (g : GroupId) (k : Nat) (h : Seam → Seam) : State :=
  s.modifyGroup g (fun x => { x with sections := x.sections.modify k (fun y => { y with seam := y.seam.map h }) })

/-- A seam with no result (R98, R103). -/
def Seam.cleared (m : Seam) : Seam := { m with adjustment := 0, state := .none, score := none }

/-- The engine abandons its search: it is idle, and a read still at the controller will be discarded when it
returns (R110). -/
def State.abandonSearch (s : State) : State := { s.abandonRead .seam with engine := none }

/-- A job leaves the queue. -/
def State.dropJob (s : State) (g : GroupId) (k : Nat) : State :=
  { s with seamQueue := s.seamQueue.filter (fun j => !(j.1 == g && j.2 == k)) }

/-- A seam is reset (R103); room it leaves in the queue is filled by `refillQueue`. -/
def State.resetSeam (s : State) (g : GroupId) (k : Nat) : State :=
  match s.seam g k with
  | none => s
  | some m =>
    let s1 := if m.state = .searching then s.abandonSearch else s
    (s1.dropJob g k).modifySeam g k Seam.cleared

/-- A NONE seam is queued, or waits where the queue holds 8 jobs (R106). -/
def State.queueSeam (s : State) (g : GroupId) (k : Nat) : State :=
  match s.seam g k with
  | none => s
  | some m =>
    if m.state ≠ .none then s
    else if s.seamQueue.length < 8 then
      { s with seamQueue := s.seamQueue ++ [(g, k)] }.modifySeam g k (fun x => { x with state := .queued })
    else s.modifySeam g k (fun x => { x with state := .waiting })

/-- A WAITING seam moves into the queue where it has room (R106). -/
def State.admitWaiting (s : State) (g : GroupId) (k : Nat) : State :=
  match s.seam g k with
  | none => s
  | some m =>
    if m.state = .waiting ∧ s.seamQueue.length < 8 then
      { s with seamQueue := s.seamQueue ++ [(g, k)] }.modifySeam g k (fun x => { x with state := .queued })
    else s

/-- The queue has gained room: WAITING seams move in, in group order and seam order (R106). -/
def State.refillQueue (s : State) : State :=
  allGroups.foldl (fun s g => (List.range 6).foldl (fun s k => s.admitWaiting g k) s) s

/-! ### Group states (R102, R103) -/

/-- A group takes a state, its stamp one above the stamp before the event (R97, R102). -/
def State.enterGroup (before s : State) (g : GroupId) (st : GroupState) : State :=
  s.modifyGroup g (fun x => { x with state := st, stamp := next16 (before.group g).stamp })

/-- The seam is FOUND or WEAK. -/
def Seam.isRecorded (m : Seam) : Bool := decide (m.state = .found ∨ m.state = .weak)

/-- The number of WEAK seams of a group. -/
def Group.weakCount (x : Group) : Nat := x.sections.countP (fun y => y.seam.any (fun m => m.state == .weak))

/-- The test for JOINED (R102). -/
def State.testJoined (before s : State) (g : GroupId) : State :=
  if (s.group g).state = .joining ∧ (s.group g).sections.all (fun y => y.seam.all Seam.isRecorded) then
    (before.enterGroup s g .joined).raise (.group g) (.mosaicJoined (s.group g).height (s.group g).weakCount)
  else s

/-- The section has a bound frame that is COMPLETE or PARTIAL. -/
def State.sectionSettled (s : State) (x : MosaicSection) : Bool := x.frame.any (fun f => (s.frame f).state.isSettled)

/-- The test for JOINING, with the queueing of NONE seams and the test for JOINED at the entry (R102). -/
def State.testJoining (before s : State) (g : GroupId) : State :=
  if (s.group g).state = .gathering ∧ (s.group g).sections.all s.sectionSettled then
    let s1 := before.enterGroup s g .joining
    let s2 := (List.range (s.group g).sections.length).foldl (fun s k => s.queueSeam g k) s1
    before.testJoined s2 g
  else s

/-- A changed group that was JOINING or JOINED returns to GATHERING, JOINED with MOSAIC_STALE (R103). -/
def State.ungather (before s : State) (g : GroupId) (k : Nat) (cause : StaleCause) : State :=
  match (s.group g).state with
  | .joining => before.enterGroup s g .gathering
  | .joined => (before.enterGroup s g .gathering).raise (.group g) (.mosaicStale k cause)
  | .gathering => s
  | .undefined => s

/-- A section is changed (R103). -/
def State.sectionChanged (before s : State) (g : GroupId) (k : Nat) (cause : StaleCause) : State :=
  let s1 := (((s.resetSeam g k).resetSeam g (k + 1)).refillQueue).recomputeHeight g
  before.testJoining (before.ungather s1 g k cause) g

/-! ### Sections and their frames (R100, R101) -/

def State.setSectionFrame (s : State) (g : GroupId) (k : Nat) (f : Option FrameId) : State :=
  s.modifyGroup g (fun x => { x with sections := x.sections.modify k (fun y => { y with frame := f }) })

/-- RETAIN cursors of a group join or leave the pin holders of a frame (R153). -/
def State.retainFor (s : State) (g : GroupId) (f : FrameId) (b : Bool) : State :=
  allCursors.foldl
    (fun s c => if (s.cursor c).retainsGroup g then s.modifyFrame f (fun x => x.setRetain c b) else s) s

/-- A frame's membership is cleared and RU is told that it left its group (R100, R101, R153). -/
def State.clearMembership (s : State) (g : GroupId) (f : FrameId) : State :=
  (s.modifyFrame f (fun x => { x with mosaic := none })).retainFor g f false

/-- A frame leaves its section, whose bound frame becomes absent; the section is changed (R100, R101). -/
def State.leaveSection (before s : State) (f : FrameId) (g : GroupId) (k : Nat) (cause : StaleCause) : State :=
  before.sectionChanged ((s.setSectionFrame g k none).clearMembership g f) g k cause

/-- The bound frame of a section. -/
def State.sectionFrame (s : State) (g : GroupId) (k : Nat) : Option FrameId :=
  (s.group g).sections[k]?.bind MosaicSection.frame

/-- A section takes a frame (R100). -/
def State.takeFrame (before s : State) (g : GroupId) (k : Nat) (f : FrameId) : State :=
  if s.sectionFrame g k = some f then s
  else
    let s1 := match (s.frame f).mosaic with
      | some (g', k') => before.leaveSection s f g' k' .newFrame
      | none => s
    let s2 := match s1.sectionFrame g k with
      | some old => s1.clearMembership g old
      | none => s1
    let s3 := (s2.setSectionFrame g k (some f)).modifyFrame f (fun x => { x with mosaic := some (g, k) })
    before.sectionChanged (s3.retainFor g f true) g k .newFrame

/-- The section that names an entry, if a group holds it. -/
def State.sectionOfEntry (s : State) (e : EntryId) : Option (GroupId × Nat) :=
  allGroups.findSome? (fun g => ((s.group g).sections.findIdx? (fun y => y.entry == e)).map (fun k => (g, k)))

/-- The entry that an entry names as repeat-of, as the schedule stands. -/
def State.repeatOf (s : State) (e : EntryId) : Option EntryId :=
  (s.entryAt e).definition.bind (fun d => d.2.repeatOf)

/-- The section that matches a frame bound through entry `e` (R100). -/
def State.matchingSection (s : State) (e : EntryId) : Option (GroupId × Nat) :=
  match s.sectionOfEntry e with
  | some x => some x
  | none => (s.repeatOf e).bind s.sectionOfEntry

/-- The fitting tests of R100: the group's drum class, and the section's minimum rows. -/
def State.fitsSection (s : State) (g : GroupId) (k : Nat) (f : FrameId) : Bool :=
  (s.frame f).geometry.any (fun x =>
    decide ((s.group g).drum = some x.drum ∧ minimumRows (s.group g).sections k ≤ x.rows))

/-- SBU tells MU which frame has been bound (R17, R100). -/
def State.tellBound (s : State) (f : FrameId) : State :=
  match (s.frame f).entry.bind s.matchingSection with
  | some (g, k) => if s.fitsSection g k f then s.takeFrame s g k f else s
  | none => s

/-- FLU tells MU that a frame has settled (R101). -/
def State.tellSettled (s : State) (f : FrameId) : State :=
  match (s.frame f).mosaic with
  | some (g, _) => s.testJoining s g
  | none => s

/-- FLU tells MU that a frame has taken a new pass (R101). -/
def State.tellNewPass (s : State) (f : FrameId) : State :=
  match (s.frame f).mosaic with
  | some (g, k) => s.sectionChanged s g k .newPass
  | none => s

/-- FLU tells MU that a frame has become FREE or FAULTED (R101). -/
def State.tellGone (s : State) (f : FrameId) (cause : StaleCause) : State :=
  match (s.frame f).mosaic with
  | some (g, k) => s.leaveSection s f g k cause
  | none => s

/-! ### Dissolve and clear (R99, R112) -/

/-- Dissolve a group (R99). -/
def State.dissolveGroup (s : State) (g : GroupId) : State :=
  let s1 := if s.engine.any (fun x => x.group == g) then s.abandonSearch else s
  let s2 : State := { s1 with seamQueue := s1.seamQueue.filter (fun j => j.1 != g) }
  let s3 := ((s.group g).sections.filterMap MosaicSection.frame).foldl (fun s f => s.clearMembership g f) s2
  let s4 := s3.loseCursors (fun c => c.onGroup g) .dissolved
  (s4.setGroup g (.undefinedWith (next16 (s.group g).stamp))).refillQueue

/-- A section after STORE_CLEAR (R112). -/
def MosaicSection.unbound (x : MosaicSection) : MosaicSection := { x with frame := none, seam := x.seam.map Seam.cleared }

/-- A group after STORE_CLEAR, its height from the nominal rows (R112). -/
def State.clearGroup (s : State) (x : Group) : Group :=
  if x.state = .undefined then x
  else
    { x with
      state := .gathering
      sections := x.sections.map MosaicSection.unbound
      height := (s.heightFrom 0 (x.sections.map MosaicSection.unbound)).toNat
      stamp := if x.state = .gathering then x.stamp else next16 x.stamp }

/-- MU at STORE_CLEAR (R112). -/
def State.clearMosaics (s : State) : State :=
  let s1 := if s.engine.isSome then s.abandonSearch else s
  { s1 with seamQueue := [], groups := s1.groups.map s.clearGroup }

end Sys2Proof.Machine
end

