-- ==== Sys2Proof/Machine/Seams.lean ====
section
/-! DEFINITION. The seam engine (section 5.6): taking a job, the rows of its windows, scoring, the result. -/

namespace Sys2Proof.Machine

/-- The rows of the upper window: the last overlap + 12 of the upper frame, those below 0 left out (R107). -/
def Search.upperCount (x : Search) : Nat := min x.upperRows (x.overlap + 12)

/-- The frame and row the engine takes next: the upper window ascending, then the lower (R107). -/
def Search.nextRow (x : Search) : Option (FrameId × Nat) :=
  let k := x.taken.length
  if k < x.upperCount then some (x.upperFrame, x.upperRows - x.upperCount + k)
  else if k < x.upperCount + x.overlap then some (x.lowerFrame, k - x.upperCount)
  else none

/-- The payload of upper row `r`, where it lies in the frame and was usable. -/
def Search.upperRow (x : Search) (r : Int) : Option (List Byte) :=
  let first : Int := (x.upperRows - x.upperCount : Nat)
  if first ≤ r ∧ r < x.upperRows then (x.taken[(r - first).toNat]?).join else none

/-- The payload of lower row `i`, where it was usable. -/
def Search.lowerRow (x : Search) (i : Nat) : Option (List Byte) := (x.taken[x.upperCount + i]?).join

/-- The difference of the pair that lower row `i` makes at shift `d`, where the pair counts (R108). -/
def Search.pairDifference (x : Search) (d : Int) (i : Nat) : Option Nat :=
  match x.upperRow ((x.upperRows : Int) - x.overlap + d + i), x.lowerRow i with
  | some a, some b => some (rowDifference a b)
  | some _, none => none
  | none, some _ => none
  | none, none => none

/-- A shift with the sum of its differences and its number of counted pairs. -/
structure ShiftScore where
  shift : Int
  sum   : Nat
  pairs : Nat
deriving DecidableEq, Repr

/-- The score at shift `d`, where at least one pair counts (R108). -/
def Search.scoreAt (x : Search) (d : Int) : Option ShiftScore :=
  let l := (List.range x.overlap).filterMap (x.pairDifference d)
  if l.length = 0 then none else some { shift := d, sum := l.sum, pairs := l.length }

/-- Shifts −12 to +12, the smaller magnitude first and the negative one of two before the positive (R108). -/
def shiftOrder : List Int :=
  0 :: (List.range 12).flatMap (fun k => [-((k : Int) + 1), (k : Int) + 1])

/-- The better of the best so far and a later shift: the later one only where its score is lower, compared
exactly (R108). -/
def betterScore : Option ShiftScore → Option ShiftScore → Option ShiftScore
  | a, none => a
  | none, some b => some b
  | some a, some b => if b.sum * a.pairs < a.sum * b.pairs then some b else some a

/-- The best shift (R108). -/
def Search.best (x : Search) : Option ShiftScore :=
  shiftOrder.foldl (fun a d => betterScore a (x.scoreAt d)) none

/-- The score in sixteenths of a grey level, rounded down (R108). -/
def ShiftScore.sixteenths (b : ShiftScore) (d : DrumClass) : Nat := 16 * b.sum / (b.pairs * drumWidth d)

/-- The seam with the result of its search (R109). -/
def Seam.withResult (m : Seam) (x : Search) (limit : Nat) : Seam :=
  match x.best with
  | none => { m with state := .weak, adjustment := 0, score := none }
  | some b =>
    if b.pairs < 4 ∨ limit * (b.pairs * drumWidth x.drum) < b.sum then
      { m with state := .weak, adjustment := 0, score := some (b.sixteenths x.drum) }
    else { m with state := .found, adjustment := b.shift, score := some (b.sixteenths x.drum) }

/-- The engine records the result and is idle; the group is tested (R102, R109). -/
def State.recordSeam (s : State) (x : Search) : State :=
  let s1 := s.modifySeam x.group x.seam (fun m => m.withResult x s.storeConfig.seamAcceptLimit)
  let s2 := { s1 with engine := none }.recomputeHeight x.group
  s.testJoined (s.testJoining s2 x.group) x.group

/-- The engine keeps one more row, usable or not. -/
def State.keepRow (s : State) (x : Search) (payload : Option (List Byte)) : State :=
  { s with engine := some { x with taken := x.taken ++ [payload] } }

/-- The engine takes rows until it needs a read or has both windows (R107, R109). The fuel covers every row of both
windows and the result. -/
def State.runSearch : Nat → State → State
  | 0, s => s
  | fuel + 1, s =>
    match s.engine with
    | none => s
    | some x =>
      match x.nextRow with
      | none => s.recordSeam x
      | some (f, row) =>
        if (s.rowEntry f row).any (fun e => e.state.isFilled) then s.placeRead .seam f row x.drum none
        else (s.keepRow x none).runSearch fuel

/-- Carry the search on, unless a read of the engine's is still at the controller: its own, or a discarded one, which the
next job's reads wait for (R110). DESIGN CHOICE (log 33): the job's rows that need no read wait for it too. -/
def State.carrySearch (s : State) : State :=
  match s.engine with
  | none => s
  | some x => if s.seamHolder.isSome then s else s.runSearch (x.upperCount + x.overlap + 1)

/-- The search of a seam, where both its sections have their frames (R107). -/
def State.searchOf (s : State) (g : GroupId) (k : Nat) : Option Search :=
  match s.sectionFrame g (k - 1), s.sectionFrame g k, s.seam g k, (s.group g).drum with
  | some upper, some lower, some m, some drum =>
    ((s.frame upper).geometry.map Geometry.rows).map (fun rows =>
      { group := g, seam := k, drum := drum, upperFrame := upper, lowerFrame := lower, upperRows := rows
        overlap := m.overlap, taken := [] })
  | _, _, _, _ => none

/-- SEAM_JOB_TAKE: an idle engine takes the job at the head of the queue (R106, R107). -/
def execSeamJobTake (s : State) : Host.Outcome State Fault Refusal :=
  .next (match s.engine, s.seamQueue with
    | none, (g, k) :: rest =>
      match s.searchOf g k with
      | none => s
      | some x =>
        let s1 := { s with seamQueue := rest, engine := some x }.modifySeam g k (fun m => { m with state := .searching })
        s1.refillQueue.carrySearch
    | none, [] => s
    | some _, _ => s)

end Sys2Proof.Machine
end

