-- ==== Sys2Proof/Machine/Frames.lean ====
section
/-! DEFINITION. The frame lifecycle unit (chapter 4): setting a frame up, joins and new passes, settling, and a
frame becoming FREE or FAULTED. -/

namespace Sys2Proof.Machine

/-! ### Row maps (R49, R66) -/

/-- The in-flight field of a row of a map being built in a slot: yes, of the stale operation's kind and with no
pending line, where an issued operation is outstanding for the slot and row (R66). -/
def State.inheritedFlight (s : State) (f : FrameId) (row : Nat) : InFlight :=
  match s.writeQueue.find? (fun o => o.slot == f && o.row == row && o.issued.isSome) with
  | none => .no
  | some o =>
    match o.kind with
    | .rowWrite _ => .write none
    | .rowCopy _ _ => .copy

/-- A map with every entry EMPTY (R49, R66). -/
def State.freshMap (s : State) (f : FrameId) (rows : Nat) : List RowEntry :=
  (List.range rows).map (fun row => { RowEntry.fresh with inFlight := s.inheritedFlight f row })

/-- An entry of a map takes a new value, FLU's counts following its state (R69). -/
def State.setRow (s : State) (f : FrameId) (row : Nat) (e : RowEntry) : State :=
  match s.rowEntry f row with
  | none => s
  | some old =>
    s.modifyFrame f (fun x => { x.recount old.state e.state with rowMap := x.rowMap.set row e })

/-! ### Reservations (R159) -/

/-- Every valid reservation of the target becomes invalid (R159). -/
def State.dropReservations (s : State) (t : Target) : State :=
  { s with reservations := s.reservations.map (fun r => if r.target = some t then { r with valid := false } else r) }

/-! ### Becoming FREE and FAULTED (R78, R79) -/

/-- A frame becomes FREE (R78), with what the controller does of it (R124, R125), in the order of R78; its row map goes
with its record (R73). The notice of a lapse or an eviction is its cause's. -/
def State.freeFrame (s : State) (f : FrameId) : State :=
  let s1 := (s.staleOps f).removeUnissued f
  let s2 := (s1.releaseView f .free).loseCursors (fun c => c.onFrame f) .free
  let s3 := s2.modifyFrame f (fun x => { x with pins := .empty })
  let s4 := (s3.unmarkRecords f).tellGone f .free
  let s5 := (s4.vanishReads f).modifyFrame f (fun x => .freeWith (next16 x.stamp))
  s5.dropReservations (.frame f)

/-- FLU faults a frame (R79), with what the controller does of it (R125). A request for a frame in another state
leaves it as it is. -/
def State.faultFrame (s : State) (f : FrameId) : State :=
  if (s.frame f).state.canFault then
    let joined := (s.frame f).joined
    let s1 := s.modifyFrame f (fun x =>
      { x with settleTimer := none, enable := false, pendingMark := false, joined := .replicate 3 false })
    let s2 := allSources.foldl (fun s i => if joined[i.val] then s.sourceFaulted i else s) s1
    let s3 := ((s2.staleOps f).releaseView f .faulted).loseCursors (fun c => c.onFrame f) .faulted
    let s4 := (s3.tellGone f .faulted).faultReads f
    s4.modifyFrame f (fun x => { x with state := .faulted }.stamped)
  else s

/-! ### Settling (R80, R81, R85) -/

/-- The verdict of a pass (R81). -/
def State.verdict (s : State) (f : FrameId) : Bool := (s.frame f).meetsComplete s.storeConfig.completePerMille

/-- A source detaches from its frame; the last one starts the settle period (R80). -/
def State.detachSource (s : State) (f : FrameId) (i : SourceId) : State :=
  if (s.frame f).state = .receiving then
    let left := setMember (s.frame f).joined i false
    if anyMember left then s.modifyFrame f (fun x => { x with joined := left })
    else
      s.modifyFrame f (fun x =>
        { x with
          joined := left, state := .settling, pendingMark := true
          settleTimer := some (s.storeConfig.settleTime * 1000) }.stamped)
  else s

/-- The settle timer of a SETTLING frame expires (R81). -/
def State.settle (s : State) (f : FrameId) : State :=
  let complete := s.verdict f
  let owed := (s.frame f).enable
  let s1 := s.modifyFrame f (fun x =>
    { x with
      state := if complete then .complete else .partialOnly
      settledAt := some s.clock.time, settleTimer := none }.stamped)
  let unread := ((s1.frame f).view.bind s1.view).any (fun v => v.cursors == 0)
  let s2 := if unread then s1.releaseView f .viewReleased else s1
  let s3 := s2.tellSettled f
  let s4 := if owed then s3.raise (.frame f) (.passSettled (s.frame f).pass complete) else s3
  s4.modifyFrame f (fun x => { x with enable := false, pendingMark := false })

/-- SETTLE_EXPIRY: the settle timer of a frame expires (R81); one that is not running expires nothing (log 2). -/
def execSettleExpiry (f : FrameId) (s : State) : Host.Outcome State Fault Refusal :=
  .next (if (s.frame f).state = .settling ∧ (s.frame f).settleTimer.isSome then s.settle f else s)

/-- The old pass of a SETTLING frame is settled at the new-pass join that overtakes it (R85, R87 step 1). -/
def State.settleOvertaken (s : State) (f : FrameId) : State :=
  if (s.frame f).state = .settling then
    let x := s.frame f
    let s1 := s.modifyFrame f (fun x => { x with settleTimer := none })
    if x.enable && x.pendingMark then
      (s1.raise (.frame f) (.passSettled x.pass (s.verdict f))).modifyFrame f
        (fun x => { x with settledAt := some s.clock.time, enable := false, pendingMark := false })
    else s1
  else s

/-! ### Joins, new passes, takes and fresh frames (R12, R14, R86, R87) -/

/-- A set of one source. -/
def onlySource (i : SourceId) : Vector Bool 3 := setMember (.replicate 3 false) i true

/-- A source joins a RECEIVING frame (R86). -/
def State.joinFrame (s : State) (f : FrameId) (i : SourceId) : State :=
  s.modifyFrame f (fun x => { x with joined := setMember x.joined i true })

/-- A source rejoins the pass of a SETTLING frame (R86). -/
def State.rejoinFrame (s : State) (f : FrameId) (i : SourceId) : State :=
  s.modifyFrame f (fun x =>
    { x with state := .receiving, settleTimer := none, joined := setMember x.joined i true }.stamped)

/-- A source opens a new pass through a schedule entry (R11, R87). -/
def State.newPass (s : State) (f : FrameId) (i : SourceId) (e : EntryId) (d : EntryFields) : State :=
  let s1 := (((s.settleOvertaken f).staleOps f).releaseView f .viewReleased).openView f
  let s2 := s1.modifyFrame f (fun x =>
    { x with
      state := .receiving, pass := x.pass + 1, enable := true, pendingMark := false, joined := onlySource i
      entry := some e, station := d.station, product := d.product }.stamped)
  s2.tellNewPass f

/-- The geometry of an entry. -/
def EntryFields.geometry (d : EntryFields) : Geometry :=
  { drum := d.drum, rate := d.rate, direction := d.direction, rows := d.rows }

/-- What a frame being set up takes from an entry, or an ad hoc START (R8, R14, R19). -/
structure FrameIdentity where
  entry    : Option EntryId
  root     : Option EntryId
  day      : Nat
  station  : Nat
  product  : Nat
  geometry : Geometry
deriving DecidableEq, Repr

/-- A FREE slot is set up as a fresh frame with its first source, pass 1 (R14). -/
def State.freshFrame (s : State) (f : FrameId) (i : SourceId) (k : FrameIdentity) : State :=
  s.modifyFrame f (fun x =>
    { Frame.freeWith x.stamp with
      state := .receiving, entry := k.entry, root := k.root, day := k.day, station := k.station
      product := k.product, geometry := some k.geometry, pass := 1, joined := onlySource i, enable := true
      rowMap := s.freshMap f k.geometry.rows }.stamped)

/-- A FREE slot is set up as an EXPECTED frame, pass 0 (R19). -/
def State.expectFrame (s : State) (f : FrameId) (k : FrameIdentity) : State :=
  s.modifyFrame f (fun x =>
    { Frame.freeWith x.stamp with
      state := .expected, entry := k.entry, root := k.root, day := k.day, station := k.station
      product := k.product, geometry := some k.geometry, rowMap := s.freshMap f k.geometry.rows }.stamped)

/-- A cursor whose window no longer lies within the refreshed rows takes the whole map (R143). -/
def CursorFields.refit (k : CursorFields) (rows : Nat) : CursorFields :=
  if k.base + k.length ≤ rows then k
  else { k with base := 0, length := rows, position := defaultPosition 0 rows k.step }

/-- RU is told that an EXPECTED frame has been refreshed (R143). -/
def State.refitCursors (s : State) (f : FrameId) (rows : Nat) : State :=
  allCursors.foldl (fun s c =>
    match (s.cursor c).openFields with
    | some k => if (s.cursor c).onFrame f then s.modifyCursor c (fun x => { x with slot := .opened (k.refit rows) }) else s
    | none => s) s

/-- An EXPECTED frame is refreshed from the chosen entry and takes its first source, pass 1 (R12). -/
def State.takeExpected (s : State) (f : FrameId) (i : SourceId) (e : EntryId) (d : EntryFields) : State :=
  let s1 := s.modifyFrame f (fun x =>
    { x with
      state := .receiving, entry := some e, station := d.station, product := d.product
      geometry := some d.geometry, pass := 1, joined := onlySource i, enable := true, pendingMark := false
      coverage := 0, missed := 0, damaged := 0
      rowMap := s.freshMap f d.rows }.stamped)
  s1.refitCursors f d.rows

/-- The lowest FREE slot (R14). -/
def State.freeSlot (s : State) : Option FrameId := allFrames.find? (fun f => (s.frame f).state == .free)

end Sys2Proof.Machine
end

