-- ==== Sys2Proof/Machine/Faults.lean ====
section
/-! DEFINITION. Memory errors: the marks, the escalation to FAULTED (section 7.3), and what PE makes of a row that
memory failed to keep (R61, R62). -/

namespace Sys2Proof.Machine

/-- A memory error of a row (R128). -/
def memoryReport (kind : ErrorKind) (f : FrameId) (row pass detail : Nat) : ErrorReport :=
  { kind := kind, origin := .memory, frame := some f, row := some row, pass := some pass, detail := detail }

/-- A second memory error on a marked frame faults it (R133). -/
def State.escalate (s : State) (f : FrameId) (row : Nat) (e : ErrorReport) : State :=
  let s1 := (s.fileError e false).faultFrame f
  let pass := (s.frame f).pass
  let s2 := s1.logError
    { kind := .frameFaulted, origin := .frame f, frame := some f, row := some row, pass := some pass
      detail := e.kind.code }
  s2.raise (.frame f) (.frameFaulted pass e.kind.code)

/-- FC takes a memory error for a row of a frame (R132, R133). -/
def State.memoryError (s : State) (f : FrameId) (row : Nat) (e : ErrorReport) : State :=
  if (s.frame f).state.canFault then
    if (s.frame f).memoryError then s.escalate f row e
    else if filingOf s.errors e = .dropped then s.fileError e false
    else (s.modifyFrame f (fun x => { x with memoryError := true })).fileError e true
  else s.fileError e false

/-- A read of a slot row has found its check word wrong, or got no answer (R62, R123): the row becomes DAMAGED and
READ_CORRUPT is logged. -/
def State.readCorrupt (s : State) (f : FrameId) (row detail : Nat) : State :=
  match s.rowEntry f row with
  | none => s
  | some e =>
    let pass := e.state.passOf.getD (s.frame f).pass
    (s.setRow f row { e with state := .damaged pass }).memoryError f row
      (memoryReport .readCorrupt f row pass detail)

/-- A pool row has failed its check word and its view still stands (R122): the entry loses it, FLU takes it back, and
READ_CORRUPT is logged with the pass of the preserved entry. DESIGN CHOICE (log 34): so too where an earlier failed read
has already had the entry give the pool row up. -/
def State.poolCorrupt (s : State) (f : FrameId) (row : Nat) (p : PoolRow) (pass detail : Nat) : State :=
  match s.rowEntry f row with
  | none => s
  | some e =>
    ((s.setRow f row { e with preserved := none, lost := true }).returnPoolRow p f row).memoryError f row
      (memoryReport .readCorrupt f row pass detail)

end Sys2Proof.Machine
end

