-- ==== Sys2Proof/Machine/Reading.lean ====
section
/-! DEFINITION. The read unit's rows (chapter 8): what a reader is shown of a row, the translation of a composite
row, and the carrying out of READ_NEXT and READ_AT row by row. -/

namespace Sys2Proof.Machine

/-! ### What a row shows (R90, R105) -/

/-- A row of a frame's map as it stands; a row the map does not have shows as blank. -/
def State.currentShows (s : State) (f : FrameId) (row : Nat) : Showing :=
  match s.rowEntry f row with
  | some e => .standing e
  | none => .blank

/-- The entry carries a pass greater than the generation the frame's view shows (R90 test 3). -/
def State.laterPass (s : State) (f : FrameId) (e : RowEntry) : Bool :=
  match (s.frame f).view.bind s.view, e.state.passOf with
  | some v, some p => decide (v.generation < p)
  | some _, none => false
  | none, _ => false

/-- A row as the frame's view shows it, by the four tests of R90 in their order. -/
def State.viewShows (s : State) (f : FrameId) (row : Nat) : Showing :=
  match s.rowEntry f row with
  | none => .blank
  | some e =>
    match e.preserved with
    | some p => .preserved p
    | none => if e.lost then .lost else if s.laterPass f e then .blank else .standing e

/-- The order of a section's row by R105: its entry's state, a section with no bound frame counting as EMPTY. -/
def State.sectionRank (s : State) (x : MosaicSection) (row : Nat) : Nat :=
  match x.frame.bind (fun f => s.rowEntry f row) with
  | some e => e.state.rank
  | none => 0

/-- Of the sections with their tops, the section index and section row a composite row names: the better entry,
the upper section's where they are equal (R105). -/
def State.nameRow (s : State) (c : Nat) :
    List (Nat × MosaicSection × Int) → Option (Nat × MosaicSection × Nat)
  | [] => none
  | (k, x, top) :: rest =>
    let below := s.nameRow c rest
    let row := ((c : Int) - top).toNat
    if top ≤ c ∧ row < s.sectionRows x then
      match below with
      | none => some (k, x, row)
      | some (k', x', row') =>
        if s.sectionRank x row < s.sectionRank x' row' then some (k', x', row') else some (k, x, row)
    else below

/-- The translation of a composite row: the section, frame and frame row, or none where it reads EMPTY (R105). -/
def State.translate (s : State) (g : GroupId) (c : Nat) : Option Naming :=
  let sections := (s.group g).sections
  match s.nameRow c ((List.range sections.length).zip (sections.zip (s.tops g))) with
  | none => none
  | some (k, x, row) => x.frame.map (fun f => { index := k, frame := f, row := row })

/-- A row as its reader is shown it, with the frame row it is read from, if any, and a composite row's naming. -/
structure RowView where
  showing : Showing
  place   : Option (FrameId × Nat)
  naming  : Option Naming
deriving DecidableEq, Repr

/-- A row of an attachment (R144, R149, R150). -/
def State.rowView (s : State) (a : Attachment) (row : Nat) : RowView :=
  match a with
  | .current f => { showing := s.currentShows f row, place := some (f, row), naming := none }
  | .previous f => { showing := s.viewShows f row, place := some (f, row), naming := none }
  | .group g =>
    match s.translate g row with
    | none => { showing := .blank, place := none, naming := none }
    | some n => { showing := s.currentShows n.frame n.row, place := some (n.frame, n.row), naming := some n }

/-! ### Read commands (R144 to R148) -/

/-- The row a command visits after `i` rows, or none when it has visited them all (R143, R146, R148). -/
def JobKind.row (k : JobKind) (x : CursorFields) (i : Nat) : Option Nat :=
  match k with
  | .readNext count => if i < count then some (moveInWindow x.base x.length x.position (i * x.step)) else none
  | .readAt offset => if i < 1 then some (moveInWindow x.base x.length x.position offset) else none

/-- The FOLLOW test stops READ_NEXT at this row: its frame is RECEIVING or SETTLING and its entry EMPTY or in flight;
a PREVIOUS attachment is read without the test (R147). -/
def State.followStops (s : State) (x : CursorFields) (k : JobKind) (v : RowView) : Bool :=
  match k, x.attachment, v.place, v.showing with
  | .readNext _, .current _, some (f, _), .standing e =>
    x.follow && (s.frame f).state.isRunning && (e.state == .empty || e.inFlight != .no)
  | .readNext _, .group _, some (f, _), .standing e =>
    x.follow && (s.frame f).state.isRunning && (e.state == .empty || e.inFlight != .no)
  | _, _, _, _ => false

/-- A command's own status: the first item's that is not OK (R145). -/
def statusOfItems (items : List RowItem) : Status :=
  match items.find? (fun i => i.status ≠ .ok) with
  | some i => i.status
  | none => .ok

/-- The cursor's position after a command that has read these rows (R146 to R148). -/
def JobKind.positionAfter (k : JobKind) (x : CursorFields) (n : Nat) : Nat :=
  match k with
  | .readNext _ => moveInWindow x.base x.length x.position (n * x.step)
  | .readAt _ => x.position

/-- The body of a READ_NEXT or READ_AT response (R182). -/
def readBody (position : Nat) (items : List RowItem) : List Byte :=
  beBytes 2 position ++ [byteOf items.length] ++ items.flatMap RowItem.bytes

/-- The command is answered: read in flight becomes no, and the position moves (R144 to R148). -/
def State.finishJob (s : State) (c : CursorId) (x : CursorFields) (j : ReadJob) (status : Status) : State :=
  let p := j.kind.positionAfter x j.items.length
  (s.setCursor c { slot := .opened { x with position := p }, job := none }).answer (ownerOf c) status
    (readBody p j.items)

/-- The command waits: for the row read it has placed, or to take its next row. -/
def State.parkJob (s : State) (c : CursorId) (j : ReadJob) (phase : JobPhase) : State :=
  s.modifyCursor c (fun x => { x with job := some { j with phase := phase } })

/-- The item of a row that needs no picture memory (R144, R149). -/
def itemAtOnce (row : Nat) (v : RowView) : RowItem :=
  { row := row, status := if v.showing = .lost then .rowLost else .ok, report := v.showing.report
    naming := v.naming, payload := [] }

/-- The read a row needs, if it needs picture memory: a PROVISIONAL or FIRM row, or a preserved one (R144, R149). -/
def RowView.needsRead (v : RowView) : Option (FrameId × Nat × Option PoolRow) :=
  match v.showing, v.place with
  | .standing e, some (f, row) => if e.state.isFilled then some (f, row, none) else none
  | .preserved p, some (f, row) => some (f, row, some p)
  | .standing _, none => none
  | .preserved _, none => none
  | .lost, _ => none
  | .blank, _ => none

/-- The read a row needs, with the drum class of its frame (R122, R144). -/
def State.readFor (s : State) (v : RowView) : Option (FrameId × Nat × DrumClass × Option PoolRow) :=
  match v.needsRead with
  | none => none
  | some (f, row, pool) => (s.frame f).geometry.map (fun g => (f, row, g.drum, pool))

/-- The rows a command visits (R146, R148). -/
def JobKind.rows : JobKind → Nat
  | .readNext count => count
  | .readAt _ => 1

/-- Carry a command on from its next row: items at once until a row needs picture memory, the FOLLOW test stops it,
or its rows are done. A row that needs a read while a discarded one is still in the holder waits for it (log 19).
The fuel is one more than the rows the command visits. -/
def State.runJob : Nat → State → CursorId → State
  | 0, s, _ => s
  | fuel + 1, s, c =>
    match (s.cursor c).openFields, (s.cursor c).job with
    | some x, some j =>
      match j.kind.row x j.items.length with
      | none => s.finishJob c x j (statusOfItems j.items)
      | some row =>
        let v := s.rowView x.attachment row
        if s.followStops x j.kind v then s.finishJob c x j .notYet
        else
          match s.readFor v with
          | none =>
            let s1 := s.parkJob c { j with items := j.items ++ [itemAtOnce row v] } .retake
            s1.runJob fuel c
          | some (f, r, drum, pool) =>
            if (s.holder (.cursor c)).isSome then s.parkJob c j .retake
            else (s.placeRead (.cursor c) f r drum pool).parkJob c j (.awaiting (itemAtOnce row v) f r)
    | some _, none => s
    | none, _ => s

/-- Carry on a command that is to take its next row, once its holder is empty (log 19). -/
def State.resumeJob (s : State) (c : CursorId) : State :=
  match (s.cursor c).job with
  | some j => if j.phase = .retake ∧ (s.holder (.cursor c)).isNone then s.runJob (j.kind.rows + 1) c else s
  | none => s

/-- Every command that is to take its next row, in cursor order (log 12). -/
def State.resumeJobs (s : State) : State := allCursors.foldl (fun s c => s.resumeJob c) s

/-- A command is taken: its rows begin (R144). -/
def State.startJob (s : State) (c : CursorId) (k : JobKind) : State :=
  (s.modifyCursor c (fun x => { x with job := some { kind := k, items := [], phase := .retake } })).runJob (k.rows + 1) c

/-! ### The return of a row read to its command (R144, R149, R150) -/

/-- The item a right slot payload makes, or none where the row is to be taken afresh: the entry is read again, through
the view for a PREVIOUS attachment (R144, R149). R149 names a pool row and lost as the cases to take afresh; that a row which
the view has come to show EMPTY is taken afresh too, its payload discarded, is the model's choice (log 41). -/
def State.itemOfSlotData (s : State) (a : Attachment) (item : RowItem) (f : FrameId) (row : Nat)
    (payload : List Byte) : Option RowItem :=
  let showing := match a with
    | .previous _ => s.viewShows f row
    | .current _ => s.currentShows f row
    | .group _ => s.currentShows f row
  match showing with
  | .standing e => some { item with report := e.report, payload := if e.state.isFilled then payload else [] }
  | .preserved _ => none
  | .lost => none
  | .blank => none

/-- The command keeps an item, where there is one, and is to take its next row. -/
def State.keepItem (s : State) (c : CursorId) (j : ReadJob) (item : Option RowItem) : State :=
  s.parkJob c { j with items := j.items ++ item.toList } .retake

/-- The controller answers a cursor's read: with the record that came back where its check word is right, otherwise
ROW_DAMAGED; NO_SUCH and FAULTED have a composite row taken anew (R122, R144, R145, R149, R150). -/
def State.answerCursor (s : State) (c : CursorId) (r : ReadRequest) (good : Option (List Byte)) : State :=
  match (s.cursor c).openFields, (s.cursor c).job with
  | some x, some j =>
    match j.phase with
    | .retake => s
    | .awaiting item f row =>
      if r.fate ≠ .normal then s.keepItem c j none
      else
        match good, r.pool with
        | none, _ => s.keepItem c j (some { item with status := .rowDamaged, payload := [] })
        | some bytes, none => s.keepItem c j (s.itemOfSlotData x.attachment item f row (bytes.take (drumBytes r.drum)))
        | some bytes, some _ =>
          s.keepItem c j (some { item with
            report := preservedLineReport (bytes.drop (drumBytes r.drum + 2))
            payload := bytes.take (drumBytes r.drum) })
  | some _, none => s
  | none, _ => s

/-- The controller answers the seam engine's read: a row usable or not (R107). -/
def State.answerSeam (s : State) (r : ReadRequest) (good : Option (List Byte)) : State :=
  match s.engine with
  | none => s
  | some x =>
    if r.fate = .normal then s.keepRow x (good.map (fun bytes => bytes.take (drumBytes r.drum)))
    else s.keepRow x none

/-- The controller answers the requester, unless it has left (R122). -/
def State.answerRead (s : State) (h : ReadHolder) (r : ReadRequest) (good : Option (List Byte)) : State :=
  if r.abandoned then s
  else
    match h with
    | .cursor c => s.answerCursor c r good
    | .seam => s.answerSeam r good

/-- The detail of a READ_CORRUPT: 1 client read, 2 seam read, 4 pool read; where no answer came, 5, 6 and 7 (R128). -/
def corruptDetail (h : ReadHolder) (pool noAnswer : Bool) : Nat :=
  match h, pool, noAnswer with
  | .cursor _, false, false => 1
  | .seam, false, false => 2
  | _, true, false => 4
  | .cursor _, false, true => 5
  | .seam, false, true => 6
  | _, true, true => 7

/-- The pass of the preserved entry as memory holds it (log 21). -/
def State.keptPass (s : State) (p : PoolRow) (d : DrumClass) : Nat :=
  (s.memoryByte (poolBase p + drumBytes d + 4)).toNat

/-- A read has failed its check word or got no answer: the report to PE (R122, R123). A vanished read reports nothing
(R124), nor does a pool read whose view has been released. -/
def State.reportCorrupt (s : State) (h : ReadHolder) (r : ReadRequest) (noAnswer : Bool) : State :=
  if r.fate = .vanished then s
  else
    match r.pool with
    | none => s.readCorrupt r.slot r.row (corruptDetail h false noAnswer)
    | some p =>
      if r.viewGone then s
      else s.poolCorrupt r.slot r.row p (s.keptPass p r.drum) (corruptDetail h true noAnswer)

/-- A read returns with the bytes that came back, or with none (R122, R123): its holder empties, a failure is reported,
and its requester is answered. -/
def State.returnRead (s : State) (h : ReadHolder) (r : ReadRequest) (bytes : Option (List Byte)) : State :=
  let good := bytes.filter (fun b => r.checks b)
  let s1 := s.emptyHolder h
  let s2 := if good.isSome then s1 else s1.reportCorrupt h r bytes.isNone
  s2.answerRead h r good

end Sys2Proof.Machine
end

