-- ==== Sys2Proof/Machine/Binding.lean ====
section
/-! DEFINITION. The schedule and binding unit's binding of a START (sections 1.3 and 1.4): matching, the broadcast
key, the binding order, and what a binding hands on. -/

namespace Sys2Proof.Machine

/-! ### Matching a START (R4 to R7) -/

/-- The root entry an entry names (R4). -/
def EntryFields.rootOf (d : EntryFields) (e : EntryId) : EntryId := d.repeatOf.getD e

/-- The day shift, 0 for an entry without repeat-of whatever the field holds (R4). -/
def EntryFields.shift (d : EntryFields) : Nat := if d.repeatOf.isSome then d.dayShift else 0

/-- The broadcast day of a broadcast taken today (R7). -/
def State.broadcastDay (s : State) (d : EntryFields) : Nat := (s.clock.day + 65536 - d.shift) % 65536

/-- The distance of the current minute from the entry's start minute, where the entry is a candidate for the START
(R5). -/
def State.candidateDistance (s : State) (x : StartRecord) (e : EntryId) : Option Nat :=
  match (s.entryAt e).definition with
  | some (.active, d) =>
    let k := minuteDistance s.clock.minute d.startMinute
    if x.frequency ∈ d.frequencies ∧ x.drum = d.drum ∧ x.rate = d.rate
        ∧ d.days.getLsbD (weekdayIndex s.clock.weekday).val = true ∧ k ≤ d.tolerance then some k
    else none
  | some (.suspended, _) => none
  | none => none

/-- The nearer of the best so far and a later entry; the lower index keeps a tie (R6). -/
def nearerEntry (best : Option (EntryId × Nat)) (e : EntryId) : Option Nat → Option (EntryId × Nat)
  | none => best
  | some k =>
    match best with
    | none => some (e, k)
    | some (e', k') => if k < k' then some (e, k) else some (e', k')

/-- The chosen entry of a START with its fields, while the clock is SET (R5, R6). -/
def State.chosenEntry (s : State) (x : StartRecord) : Option (EntryId × EntryFields) :=
  match allEntries.foldl (fun best e => nearerEntry best e (s.candidateDistance x e)) none with
  | none => none
  | some (e, _) => (s.entryAt e).definition.map (fun d => (e, d.2))

/-- The non-FREE frame that holds a broadcast key (R7). -/
def State.keyHolder (s : State) (root : EntryId) (day : Nat) : Option FrameId :=
  allFrames.find? (fun f =>
    (s.frame f).state != .free && (s.frame f).root == some root && (s.frame f).day == day)

/-! ### The binding order (R9 to R16) -/

/-- The steps of the binding order; a fresh frame may follow a key handover from the frame named (R13). -/
inductive BindingStep where
  | join (f : FrameId)
  | rejoin (f : FrameId)
  | newPass (f : FrameId)
  | take (f : FrameId)
  | fresh (old : Option FrameId)
deriving DecidableEq, Repr

/-- Step 3: a new pass, unless the geometry differs or the pass is 15 (R11). -/
def Frame.newPassStep (x : Frame) (f : FrameId) (d : EntryFields) : BindingStep :=
  if x.geometry = some d.geometry ∧ x.pass < 15 then .newPass f else .fresh (some f)

/-- The step a scheduled START takes (R9 to R13). -/
def State.bindingStep (s : State) (e : EntryId) (d : EntryFields) : BindingStep :=
  match s.keyHolder (d.rootOf e) (s.broadcastDay d) with
  | none => .fresh none
  | some f =>
    let x := s.frame f
    match x.state with
    | .receiving => if x.entry = some e ∨ x.geometry = some d.geometry then .join f else .fresh (some f)
    | .settling => if x.entry = some e then .rejoin f else x.newPassStep f d
    | .complete => x.newPassStep f d
    | .partialOnly => x.newPassStep f d
    | .expected => .take f
    | .faulted => .fresh (some f)
    | .free => .fresh none

/-- The settled-at time as one number, for comparison (R15). -/
def Frame.settledTime (x : Frame) : Nat :=
  match x.settledAt with
  | some (day, second) => day * 86400 + second
  | none => 0

/-- The frame is an eviction candidate (R15). -/
def Frame.isEvictable (x : Frame) : Bool := x.state.isSettled && x.pins.isEmpty

/-- The frame step 6 evicts: the oldest settled, ties to the lowest slot (R15). -/
def State.evictionChoice (s : State) : Option FrameId :=
  (allFrames.filter (fun f => (s.frame f).isEvictable)).foldl (fun best f =>
    match best with
    | none => some f
    | some b => if (s.frame f).settledTime < (s.frame b).settledTime then some f else some b) none

/-- The old frame gives its key up, where it is another than the slot taken (R13). -/
def State.handOver (s : State) (old : Option FrameId) (f : FrameId) : State :=
  match old with
  | none => s
  | some o => if o = f then s else s.modifyFrame o (fun x => { x with entry := none, root := none })

/-! ### Handing the binding on (R17, R25) -/

/-- The source takes frame, pass and geometry from the answer, sets up the new stream and goes to PHASING (R25). -/
def Source.bound (x : Source) (b : StreamBinding) : Source :=
  { x.stopTimers with
    state := .phasing, binding := some b, firstSeq := none, expectedSeq := none, reference := 0
    unphased := false, positions := [], misses := 0, rejections := 0 }

/-- The source is told its binding (R17). -/
def State.bindSource (s : State) (i : SourceId) (f : FrameId) : State :=
  match (s.frame f).geometry with
  | none => s
  | some g => s.modifySource i (fun x => x.bound { frame := f, pass := (s.frame f).pass, geometry := g })

/-- The source is told that there is no binding (R25). -/
def State.discardStream (s : State) (i : SourceId) : State :=
  s.modifySource i (fun x => { x with state := .discarding })

/-- The results of a binding after FLU's change, in the order of R17: the source, MU where there is a chosen entry,
FRAME_EVICTED where there was an eviction, FRAME_BOUND. -/
def State.handOn (s : State) (i : SourceId) (f : FrameId) (kind : BindingKind) (scheduled evicted : Bool) : State :=
  let s1 := s.bindSource i f
  let s2 := if scheduled then s1.tellBound f else s1
  let s3 := if evicted then s2.raise (.frame f) (.frameEvicted i) else s2
  s3.raise (.frame f) (.frameBound i kind)

/-- Steps 5 to 7: the lowest FREE slot, else the slot of an evicted frame, else exhaustion (R13 to R16). -/
def State.bindFresh (s : State) (i : SourceId) (k : FrameIdentity) (old : Option FrameId) : State :=
  let scheduled := k.entry.isSome
  match s.freeSlot with
  | some f => ((s.handOver old f).freshFrame f i k).handOn i f .fresh scheduled false
  | none =>
    match s.evictionChoice with
    | some f => (((s.freeFrame f).handOver old f).freshFrame f i k).handOn i f .fresh scheduled true
    | none =>
      (s.discardStream i).logError
        { kind := .frameExhausted, origin := .source i, frame := none, row := none, pass := none
          detail := if scheduled then 1 else 2 }

/-- What a fresh or prepared frame takes from an entry for a day (R14, R19). -/
def identityOf (e : EntryId) (d : EntryFields) (day : Nat) : FrameIdentity :=
  { entry := some e, root := some (d.rootOf e), day := day, station := d.station, product := d.product
    geometry := d.geometry }

/-- What an ad hoc frame takes from its START (R8). -/
def State.adHocIdentity (s : State) (x : StartRecord) : FrameIdentity :=
  { entry := none, root := none, day := s.clock.time.1, station := 0, product := 0
    geometry := { drum := x.drum, rate := x.rate, direction := .down, rows := 2048 } }

/-- A scheduled START through its chosen entry (R9 to R17). -/
def State.bindScheduled (s : State) (i : SourceId) (e : EntryId) (d : EntryFields) : State :=
  match s.bindingStep e d with
  | .join f => (s.joinFrame f i).handOn i f .join true false
  | .rejoin f => (s.rejoinFrame f i).handOn i f .rejoin true false
  | .newPass f => (s.newPass f i e d).handOn i f .newPass true false
  | .take f => (s.takeExpected f i e d).handOn i f .expected true false
  | .fresh old => s.bindFresh i (identityOf e d (s.broadcastDay d)) old

/-- An unscheduled START (R8). -/
def State.bindUnscheduled (s : State) (i : SourceId) (x : StartRecord) : State :=
  if (s.source i).config.adHoc then s.bindFresh i (s.adHocIdentity x) none
  else (s.discardStream i).raise (.source i) (.unscheduled (!s.clock.isSet))

/-- A START taken by an IDLE source with no bound frame (R5, R25). -/
def State.bindStart (s : State) (i : SourceId) (x : StartRecord) : State :=
  if s.clock.isSet then
    match s.chosenEntry x with
    | some (e, d) => s.bindScheduled i e d
    | none => s.bindUnscheduled i x
  else s.bindUnscheduled i x

/-! ### Held STARTs and the end of an event (R26; log 12) -/

/-- A source that has reached IDLE unbound with a START held takes it as if it had just arrived (R26). -/
def State.takeHeldStart (s : State) (i : SourceId) : State :=
  let x := s.source i
  match x.held with
  | none => s
  | some h =>
    if x.state = .idle ∧ x.binding.isNone then (s.modifySource i (fun x => { x with held := none })).bindStart i h
    else s

/-- What follows an event that may have freed or faulted a frame, detached a source or emptied a read holder: held
STARTs in source order, then the search, then the read commands that are to take their next row (log 12). -/
def State.closeEvent (s : State) : State :=
  ((allSources.foldl (fun s i => s.takeHeldStart i) s).carrySearch).resumeJobs

end Sys2Proof.Machine
end

