-- ==== Sys2Proof/Machine/Clock.lean ====
section
/-! DEFINITION. The day clock, the minute check, and prepared frames (sections 1.1 and 1.5). -/

namespace Sys2Proof.Machine

/-- The minutes of 65,536 days. -/
def minutesOfDays : Nat := 65536 * 1440

/-- The window of an EXPECTED frame has passed: its entry is VACANT, or the window end lies between 1 minute and
32,767 days back (R20). -/
def State.windowPassed (s : State) (x : Frame) : Bool :=
  match x.entry with
  | none => false
  | some e =>
    match (s.entryAt e).definition with
    | none => true
    | some (_, d) =>
      let ended := (x.day + d.shift) % 65536 * 1440 + d.startMinute + d.tolerance
      let now := s.clock.day * 1440 + s.clock.minute
      let forward := (now + minutesOfDays - ended % minutesOfDays) % minutesOfDays
      decide (1 ≤ forward ∧ forward ≤ 32767 * 1440)

/-- The minute check takes one frame (R20). -/
def State.checkLapse (s : State) (f : FrameId) : State :=
  let x := s.frame f
  if x.state = .expected ∧ x.pins.isEmpty = true ∧ s.windowPassed x = true then
    (s.freeFrame f).raise (.frame f) (.expectedLapsed x.entry)
  else s

/-- The minute check over the EXPECTED frames while the clock is SET (R20). DESIGN CHOICE (log 36), unsafe: in slot order,
where R20 gives none; the last of a client's cursors so lost is the one whose detail its merged CURSOR_LOST pair keeps. -/
def State.minuteCheck (s : State) : State :=
  if s.clock.isSet then allFrames.foldl (fun s f => s.checkLapse f) s else s

/-- CLOCK_SECOND: a second derived from the crystal; the clock counts while SET, and entry to a new minute starts the
minute check (R1, R20). -/
def execClockSecond (s : State) : Host.Outcome State Fault Refusal :=
  .next (if s.clock.isSet then
    let s1 := { s with clock := s.clock.tick }
    if s1.clock.second % 60 = 0 then s1.minuteCheck.closeEvent else s1
  else s)

/-- SET_CLOCK loads the clock and runs the minute check at once (R2). -/
def execSetClock (port : ClientId) (tag second day weekday : Nat) (s : State) : Host.Outcome State Fault Refusal :=
  .next (s.request port tag [.system] (fun s =>
    match weekdayOfCode weekday with
    | none => s.answer port .badRequest []
    | some w =>
      if 86399 < second then s.answer port .badRequest []
      else
        let s1 := { s with clock := { isSet := true, second := second, day := day, weekday := w } }
        (s1.minuteCheck.answer port .ok []).closeEvent))

/-- The number a weekday is sent as (R180). -/
def weekdayCode (w : Weekday) : Nat := (weekdayIndex w).val

/-- GET_CLOCK (R2). -/
def execGetClock (port : ClientId) (tag : Nat) (s : State) : Host.Outcome State Fault Refusal :=
  .next (s.request port tag [.read] (fun s =>
    if s.clock.isSet then
      s.answer port .ok
        (beBytes 3 s.clock.second ++ beBytes 2 s.clock.day ++ [byteOf (weekdayCode s.clock.weekday)])
    else s.answer port .clockUnset []))

/-- A frame is prepared for a broadcast day (R19). -/
def State.prepareFor (s : State) (port : ClientId) (e : EntryId) (d : EntryFields) (day : Nat) : State :=
  match s.keyHolder (d.rootOf e) day with
  | some f => s.answer port .conflict [byteOf f.val]
  | none =>
    match s.freeSlot with
    | none => s.answer port .full []
    | some f => (s.expectFrame f (identityOf e d day)).answer port .ok [byteOf f.val]

/-- PREPARE asks for a frame to wait for a broadcast in EXPECTED (R19). -/
def execPrepare (port : ClientId) (tag entry dayGiven day : Nat) (s : State) : Host.Outcome State Fault Refusal :=
  .next (s.request port tag [.frameEdit] (fun s =>
    match indexOf 64 entry with
    | none => s.answer port .badRequest []
    | some e =>
      if yesOfByte dayGiven = true ∧ 65535 < day then s.answer port .badRequest []
      else
        match (s.entryAt e).definition with
        | none => s.answer port .noSuch []
        | some (_, d) =>
          if yesOfByte dayGiven then s.prepareFor port e d day
          else if s.clock.isSet then s.prepareFor port e d (s.broadcastDay d)
          else s.answer port .clockUnset []))

end Sys2Proof.Machine
end

