-- ==== Sys2Proof/Machine/Links.lean ====
section
/-! DEFINITION. The events of the source channels (chapter 2): the records of a line link and the expiries of a
source's timers. -/

namespace Sys2Proof.Machine

/-! ### Good records (R22, R45) -/

/-- A good record outside LINK_DOWN restarts the silence timer and clears the check failures (R22). -/
def Source.goodRecord (x : Source) : Source := { x with silenceTimer := some 2000, checkFailures := 0 }

/-- A good record in LINK_DOWN; the third in a row recovers the link (R45). -/
def Source.recover (x : Source) : Source :=
  if x.recovery + 1 < 3 then { x with recovery := x.recovery + 1 }
  else { x with state := .idle, recovery := 0, checkFailures := 0, silenceTimer := some 2000 }

/-- A good record: in LINK_DOWN it counts toward recovery alone, and otherwise it is taken in the source's state
(R22, R45); a source that it brings to IDLE takes a held START (R26; log 12). -/
def State.record (s : State) (i : SourceId) (take : State → State) : State :=
  (if (s.source i).state = .linkDown then s.modifySource i Source.recover
    else take (s.modifySource i Source.goodRecord)).closeEvent

/-! ### START (R25, R26) -/

/-- A START in a state other than LINK_DOWN (R25, R26, R45). -/
def State.takeStart (s : State) (i : SourceId) (x : StartRecord) : State :=
  match (s.source i).state with
  | .idle =>
    if (s.source i).binding.isNone then s.bindStart i x
    else s.modifySource i (fun y => { y with held := some x })
  | .phasing => s.modifySource i (fun y => { y.endStream .lost with held := some x })
  | .receiving => s.modifySource i (fun y => { y.endStream .lost with held := some x })
  | .faded => s.modifySource i (fun y => { y.endStream .lost with held := some x })
  | .draining => s.modifySource i (fun y => { y with held := some x })
  | .discarding => (s.modifySource i (fun y => { y with state := .idle })).bindStart i x
  | .linkDown => s

/-- START (R25, R26). -/
def execStart (src : SourceId) (frequency : Nat) (drum : DrumClass) (rate : LineRate) (s : State) :
    Host.Outcome State Fault Refusal :=
  .next (s.record src
    (fun s => s.takeStart src { frequency := frequency, drum := drum, rate := rate }))

/-! ### Phasing (R27, R28) -/

/-- Phasing ends at the phasing count: the reference becomes the median (R27). -/
def Source.endPhasing (x : Source) : Source :=
  { x with state := .receiving, reference := medianColumn x.positions, unphased := false, positions := [] }

/-- Phasing ends early: the median of 4 or more positions, else reference 0 and an unphased stream (R28). -/
def Source.endPhasingEarly (x : Source) : Source :=
  if 4 ≤ x.positions.length then x.endPhasing
  else { x with state := .receiving, reference := 0, unphased := true, positions := [] }

/-- A PHASE: taken in PHASING (R27), counted in DISCARDING (R16; log 37), elsewhere discarded (R42). -/
def Source.takePhase (x : Source) (pulse : Nat) : Source :=
  match x.state, x.binding with
  | .phasing, some b =>
    if drumWidth b.geometry.drum ≤ pulse then x
    else
      let y := { x with positions := x.positions ++ [pulse] }
      if x.config.phasingCount ≤ y.positions.length then y.endPhasing else y
  | .discarding, _ => x.countPhase
  | _, _ => x

/-- PHASE (R16, R27, R42). DESIGN CHOICE (log 37), unsafe: the count of those dropped in DISCARDING, which R16 asks for, is
one of the model's beside the five counters of R47. -/
def execPhase (src : SourceId) (_sequence pulse : Nat) (s : State) : Host.Outcome State Fault Refusal :=
  .next (s.record src (fun s => s.modifySource src (fun x => x.takePhase pulse)))

/-! ### Lines (R31 to R34) -/

/-- Sequence tracking and the line-period timer (R33). -/
def Source.trackSequence (x : Source) (rate : LineRate) (sequence : Nat) : Source :=
  { x with
    firstSeq := some (x.firstSeq.getD sequence)
    expectedSeq :=
      match x.firstSeq, x.expectedSeq with
      | none, _ => some (nextSeq sequence)
      | some _, none => some (nextSeq sequence)
      | some _, some e => some (if seqDistance e sequence < 2048 then nextSeq sequence else e)
    misses := if x.state = .receiving then 0 else x.misses
    linePeriodTimer := some (arrivalMs rate) }

/-- An IMAGE in FADED restarts the fade timer (R38). -/
def Source.refreshFade (x : Source) : Source :=
  if x.state = .faded then { x with fadeTimer := some (x.config.fadeLimit * 1000) } else x

/-- The reference after an accepted line (R32). -/
def Source.trackSkew (x : Source) (width skew : Nat) : Source :=
  { x with
    reference := trackReference width x.config.trackWindow x.reference
      (foldOffset width ((skew : Int) - (x.reference : Int))) }

/-- An error of a line at the edge (R128). -/
def Source.lineReport (x : Source) (i : SourceId) (kind : ErrorKind) (detail : Nat) : ErrorReport :=
  { kind := kind, origin := .source i, frame := x.boundFrame, row := none, pass := x.boundPass, detail := detail }

/-- The source rejects a line: counted, logged, tracked by its sequence, and the eighth in a row ends the stream
(R31, R33, R40); detail 1 is width, 2 skew. -/
def State.rejectLine (s : State) (i : SourceId) (rate : LineRate) (sequence detail : Nat) : State :=
  let s1 := s.modifySource i Source.countRejected
  let s2 := s1.logError ((s1.source i).lineReport i .lineRejected detail)
  s2.modifySource i (fun x => ((x.trackSequence rate sequence).refreshFade).endIfRejected)

/-- An accepted line is pushed, or lost where the ring holds 15 records (R32, R33, R34). -/
def State.acceptLine (s : State) (i : SourceId) (g : Geometry) (sequence skew quality : Nat)
    (payload : List Byte) : State :=
  let x := s.source i
  let line : LineRecord :=
    { sequence := sequence, skew := skew, quality := quality, payload := payload, reference := x.reference
      unphased := x.unphased, faded := decide (x.state = .faded) }
  let y := ((x.trackSkew (drumWidth g.drum) skew).trackSequence g.rate sequence).refreshFade
  if y.ring.length ≤ 14 then s.setSource i (y.push (.line line))
  else
    let z := { y with counters := { y.counters with overrun := stickyNext 65535 y.counters.overrun } }
    (s.setSource i z).logError (z.lineReport i .ringOverrun (sequence % 256))

/-- An IMAGE in RECEIVING or FADED: the width is tested, then the skew (R31). DESIGN CHOICE (log 40), unsafe: a line that
fails both is logged once, with the detail of the width. -/
def State.takeLine (s : State) (i : SourceId) (sequence skew quality : Nat) (payload : List Byte) : State :=
  match (s.source i).binding with
  | none => s
  | some b =>
    if payload.length ≠ drumBytes b.geometry.drum then s.rejectLine i b.geometry.rate sequence 1
    else if drumWidth b.geometry.drum ≤ skew then s.rejectLine i b.geometry.rate sequence 2
    else s.acceptLine i b.geometry sequence skew quality payload

/-- An IMAGE outside LINK_DOWN: counted as received; discarded, or taken, ending phasing early (R28, R31, R42). -/
def State.takeImage (s : State) (i : SourceId) (sequence skew quality : Nat) (payload : List Byte) : State :=
  let s1 := s.modifySource i Source.countReceived
  match (s.source i).state with
  | .receiving => s1.takeLine i sequence skew quality payload
  | .faded => s1.takeLine i sequence skew quality payload
  | .phasing => (s1.modifySource i Source.endPhasingEarly).takeLine i sequence skew quality payload
  | .idle => s1
  | .draining => s1
  | .discarding => s1
  | .linkDown => s

/-- IMAGE (R28, R31 to R34, R42). -/
def execImage (src : SourceId) (sequence skew quality : Nat) (payload : List Byte) (s : State) :
    Host.Outcome State Fault Refusal :=
  .next (s.record src (fun s => s.takeImage src sequence skew quality payload))

/-! ### STOP, DROP, RESUME, IDLE (R22, R28, R37 to R39, R42) -/

/-- The discarded stream has ended (R42). -/
def Source.endDiscard (x : Source) : Source := { x with state := .idle }

/-- A STOP (R39, R42). -/
def Source.takeStop (x : Source) : Source :=
  match x.state with
  | .phasing => x.endStream .normal
  | .receiving => x.endStream .normal
  | .faded => x.endStream .normal
  | .discarding => x.endDiscard
  | .idle => x
  | .draining => x
  | .linkDown => x

/-- STOP (R39, R42). -/
def execStop (src : SourceId) (s : State) : Host.Outcome State Fault Refusal :=
  .next (s.record src (fun s => s.modifySource src Source.takeStop))

/-- A source enters FADED: the fade timer starts and FADE is raised (R37). -/
def State.enterFaded (s : State) (i : SourceId) (byMisses : Bool) : State :=
  (s.modifySource i (fun x => { x with state := .faded, fadeTimer := some (x.config.fadeLimit * 1000) })).raise
    (.source i) (.fade (s.source i).boundFrame byMisses)

/-- A DROP (R28, R37, R38, R42). -/
def State.takeDrop (s : State) (i : SourceId) : State :=
  match (s.source i).state with
  | .receiving => s.enterFaded i false
  | .phasing => (s.modifySource i Source.endPhasingEarly).enterFaded i false
  | .discarding => s.modifySource i Source.endDiscard
  | .faded => s
  | .idle => s
  | .draining => s
  | .linkDown => s

/-- DROP (R28, R37, R38, R42). -/
def execDrop (src : SourceId) (s : State) : Host.Outcome State Fault Refusal :=
  .next (s.record src (fun s => s.takeDrop src))

/-- A RESUME returns a FADED source to RECEIVING (R38); elsewhere it has no effect (R28). -/
def Source.takeResume (x : Source) : Source :=
  if x.state = .faded then { x with state := .receiving, fadeTimer := none, misses := 0 } else x

/-- RESUME (R28, R38, R42). -/
def execResume (src : SourceId) (s : State) : Host.Outcome State Fault Refusal :=
  .next (s.record src (fun s => s.modifySource src Source.takeResume))

/-- IDLE has no effect beyond that of every good record (R22). -/
def execIdle (src : SourceId) (s : State) : Host.Outcome State Fault Refusal :=
  .next (s.record src (fun s => s))

/-! ### Link loss (R23, R44) -/

/-- The ring holds a STOP marker. -/
def RingRecord.isMarker : RingRecord → Bool
  | .marker _ => true
  | .line _ => false

/-- The ring of a source whose link has gone down: its marker, or a new one with end lost where it was bound
(R44). -/
def Source.ringAtLoss (x : Source) : List RingRecord :=
  let kept := x.ring.filter RingRecord.isMarker
  if x.binding.isSome && kept.isEmpty then [.marker .lost] else kept

/-- The source's record in LINK_DOWN; its ring emptied of lines, its head is READY (R44, R51). -/
def Source.lose (x : Source) : Source :=
  { x.stopTimers with
    state := .linkDown, silenceTimer := none, positions := [], held := none, recovery := 0
    ring := x.ringAtLoss, head := .ready
    hysteresis := hysteresisAfterRemoval x.ringAtLoss.length x.hysteresis }

/-- A source goes to LINK_DOWN and logs LINK_LOST; detail 1 is silence, 2 check failures (R44). -/
def State.loseLink (s : State) (i : SourceId) (detail : Nat) : State :=
  (s.modifySource i Source.lose).logError
    { kind := .linkLost, origin := .source i, frame := (s.source i).boundFrame, row := none, pass := none
      detail := detail }

/-- The detail of a LINK_CHECK (R128). -/
def checkDetail : CheckCause → Nat
  | .checkWord => 1
  | .form => 2

/-- A record with a failed check outside LINK_DOWN (R23). -/
def State.failCheck (s : State) (i : SourceId) (detail : Nat) : State :=
  let s1 := s.modifySource i (fun x => { x with checkFailures := stickyNext 4 x.checkFailures })
  let s2 := s1.logError
    { kind := .linkCheck, origin := .source i, frame := (s.source i).boundFrame, row := none, pass := none
      detail := detail }
  if (s2.source i).checkFailures = 4 then s2.loseLink i 2 else s2

/-- FAILED_CHECK_RECORD (R23, R45). -/
def execFailedCheckRecord (src : SourceId) (cause : CheckCause) (s : State) : Host.Outcome State Fault Refusal :=
  .next (if (s.source src).state = .linkDown then s.modifySource src (fun x => { x with recovery := 0 })
    else s.failCheck src (checkDetail cause))

/-- LINK_SILENCE_EXPIRY: 2 s without a good record (R44); a timer that is not running expires nothing (log 2). -/
def execLinkSilenceExpiry (src : SourceId) (s : State) : Host.Outcome State Fault Refusal :=
  .next (if (s.source src).silenceTimer.isSome ∧ (s.source src).state ≠ .linkDown then s.loseLink src 1 else s)

/-! ### Line-period and fade timers (R35 to R38, R68) -/

/-- PE marks the row of a sequence missed where it is EMPTY and not in flight (R68). -/
def State.markMissed (s : State) (b : StreamBinding) (first sequence : Nat) : State :=
  match rowOfSequence b.geometry first sequence with
  | none => s
  | some row =>
    match s.rowEntry b.frame row with
    | none => s
    | some e => if e.state = .empty ∧ e.inFlight = .no then s.setRow b.frame row { e with state := .missed } else s

/-- The line-period timer expires in RECEIVING (R35). -/
def State.missLine (s : State) (i : SourceId) (b : StreamBinding) (first expected : Nat) : State :=
  let s1 := s.markMissed b first expected
  let s2 := s1.modifySource i (fun x =>
    { x with
      expectedSeq := some (nextSeq expected), misses := stickyNext 255 x.misses
      linePeriodTimer := some (periodMs b.geometry.rate) })
  let s3 := if (s.source i).misses = 0 then s2.raise (.source i) (.gap b.frame expected) else s2
  if (s3.source i).config.missedLimit ≤ (s3.source i).misses then s3.enterFaded i true else s3

/-- The line-period timer expires in FADED (R36). -/
def State.skipLine (s : State) (i : SourceId) (b : StreamBinding) (expected : Nat) : State :=
  s.modifySource i (fun x =>
    { x with expectedSeq := some (nextSeq expected), linePeriodTimer := some (periodMs b.geometry.rate) })

/-- LINE_PERIOD_EXPIRY (R35, R36; log 13); a timer that is not running expires nothing (log 2). -/
def execLinePeriodExpiry (src : SourceId) (s : State) : Host.Outcome State Fault Refusal :=
  let x := s.source src
  .next (match x.linePeriodTimer, x.binding, x.firstSeq, x.expectedSeq with
    | some _, some b, some first, some expected =>
      if x.state = .receiving then s.missLine src b first expected
      else if x.state = .faded then s.skipLine src b expected
      else s
    | _, _, _, _ => s)

/-- FADE_EXPIRY: the stream ends with a marker of end lost (R38); a timer that is not running expires nothing
(log 2). -/
def execFadeExpiry (src : SourceId) (s : State) : Host.Outcome State Fault Refusal :=
  .next (if (s.source src).state = .faded ∧ (s.source src).fadeTimer.isSome then
    s.modifySource src (fun x => x.endStream .lost) else s)

end Sys2Proof.Machine
end

