-- ==== Sys2Proof/Machine/Placement.lean ====
section
/-! DEFINITION. The placement engine (chapter 3): taking ring heads, and the return of writes and copies. -/

namespace Sys2Proof.Machine

/-! ### Taking ring heads (R51 to R59) -/

/-- The sources in cyclic order from the one named. -/
def sourcesFrom (i : SourceId) : List SourceId := [i, i + 1, i + 2]

/-- The source's head is ready to be taken (R51). -/
def Source.headReady (x : Source) : Bool := decide (x.head = .ready) && !x.ring.isEmpty

/-- The state of a source that has detached by its marker (R41). -/
def SourceState.afterMarker : SourceState → SourceState
  | .draining => .idle
  | .idle => .idle
  | .linkDown => .linkDown
  | .phasing => .phasing
  | .receiving => .receiving
  | .faded => .faded
  | .discarding => .discarding

/-- PE takes a STOP marker: the source detaches and raises SOURCE_END (R41, R53). A held START is taken at the end of
the event (log 12). -/
def State.takeMarker (s : State) (i : SourceId) (e : StopEnd) : State :=
  let s1 := s.modifySource i Source.removeHead
  match (s.source i).binding with
  | none => s1
  | some b =>
    ((s1.detachSource b.frame i).raise (.source i) (.sourceEnd b.frame b.pass e)).modifySource i
      (fun x => { x.unbind with state := x.state.afterMarker })

/-- The head stays and its state changes (R58, R59). -/
def State.leaveHead (s : State) (i : SourceId) (h : HeadState) : State :=
  s.modifySource i (fun x => { x with head := h })

/-- PE rejects a line whose row lies outside the map (R54, R40). -/
def State.rejectHead (s : State) (i : SourceId) : State :=
  let s1 := s.modifySource i (fun x => ((x.removeHead).countRejected).endIfRejected)
  s1.logError ((s.source i).lineReport i .lineRejected 3)

/-- PE posts a row write and reports the line placed (R59). -/
def State.postWrite (s : State) (i : SourceId) (b : StreamBinding) (row : Nat) (e : RowEntry) (l : LineInfo)
    (payload : List Byte) : State :=
  let s1 := s.setRow b.frame row { e with inFlight := .write (some l) }
  let s2 := s1.post
    { kind := .rowWrite payload, slot := b.frame, row := row, pass := b.pass, drum := b.geometry.drum
      issued := none, stale := false }
  s2.modifySource i (fun x => x.removeHead.countPlaced)

/-- PE posts a row copy of the entry's line into a pool row; the line waits, STALLED on its row (R64, R93). -/
def State.postCopy (s : State) (i : SourceId) (b : StreamBinding) (row : Nat) (e : RowEntry) (held : LineInfo)
    (v : ViewId) (p : PoolRow) : State :=
  let s1 := (s.givePoolRow p v b.frame row).setRow b.frame row { e with inFlight := .copy }
  let s2 := s1.post
    { kind := .rowCopy p held, slot := b.frame, row := row, pass := (s.frame b.frame).pass
      drum := b.geometry.drum, issued := none, stale := false }
  s2.leaveHead i (.stalled b.frame row)

/-- The pool is empty: the view becomes TORN, VIEW_TORN is raised and SHADOW_EXHAUSTED logged (R94). -/
def State.tearView (s : State) (f : FrameId) (row : Nat) (v : ViewId) : State :=
  ((s.modifyView v (fun x => { x with torn := true })).raise (.frame f) (.viewTorn v row)).logError
    { kind := .shadowExhausted, origin := .frame f, frame := some f, row := some row
      pass := some (s.frame f).pass, detail := v.val }

/-- The line an entry holds that a write would take from the generation viewed: PROVISIONAL of a pass below the
current one, neither preserved nor lost (R64). -/
def RowEntry.endangered (e : RowEntry) (pass : Nat) : Option LineInfo :=
  match e.state with
  | .provisional l => if l.pass < pass ∧ e.preserved.isNone ∧ e.lost = false then some l else none
  | .firm _ => none
  | .empty => none
  | .missed => none
  | .damaged _ => none

/-- The frame's view with its record. -/
def State.frameView (s : State) (f : FrameId) : Option (ViewId × View) :=
  (s.frame f).view.bind (fun v => (s.view v).map (fun x => (v, x)))

/-- A line that is to be written: it waits for a place, has the row copied first, or is posted (R59, R64). -/
def State.writeLine (s : State) (i : SourceId) (b : StreamBinding) (row : Nat) (e : RowEntry) (l : LineInfo)
    (payload : List Byte) : State :=
  if s.queueFull then s.leaveHead i .waiting
  else
    match e.endangered (s.frame b.frame).pass, s.frameView b.frame with
    | some held, some (v, x) =>
      if x.torn then s.postWrite i b row { e with lost := true } l payload
      else
        match s.freePoolRow with
        | some p => s.postCopy i b row e held v p
        | none => (s.tearView b.frame row v).postWrite i b row { e with lost := true } l payload
    | some _, none => s.postWrite i b row e l payload
    | none, _ => s.postWrite i b row e l payload

/-- The row payload of a line: turned by its reference and its clamped rotation together (R55). -/
def turnedPayload (r : LineRecord) (l : LineInfo) : List Byte :=
  turnPayload r.payload ((r.reference : Int) + l.rotation)

/-- A line whose row lies in the map: it stalls, is merged-out, or is written (R57 to R59). -/
def State.decideLine (s : State) (i : SourceId) (b : StreamBinding) (row : Nat) (e : RowEntry)
    (r : LineRecord) : State :=
  if e.inFlight ≠ .no then s.leaveHead i (.stalled b.frame row)
  else
    let l := lineInfoOf i b.pass (s.source i).config.skewLimit b.geometry.drum r
    if mergeWrites s.storeConfig.replaceMargin l.quality e.state then
      s.writeLine i b row e l (turnedPayload r l)
    else s.modifySource i (fun x => x.removeHead.countMergedOut)

/-- PE takes a line from the head of a ring (R53 to R57). -/
def State.placeHead (s : State) (i : SourceId) (r : LineRecord) : State :=
  match (s.source i).binding, (s.source i).firstSeq with
  | some b, some first =>
    match rowOfSequence b.geometry first r.sequence with
    | none => s.rejectHead i
    | some row =>
      match s.rowEntry b.frame row with
      | none => s
      | some e => s.decideLine i b row e r
  | some _, none => s
  | none, _ => s

/-- The head of source `i` is taken, the pointer moving past it (R52, R53). -/
def State.takeHead (s : State) (i : SourceId) : State :=
  let s1 := { s with pointer := i + 1 }
  match (s.source i).ring with
  | [] => s
  | .marker e :: _ => s1.takeMarker i e
  | .line r :: _ => s1.placeHead i r

/-- The source whose head PE takes (R52). -/
def State.nextHead (s : State) : Option SourceId := (sourcesFrom s.pointer).find? (fun i => (s.source i).headReady)

/-- HEAD_TAKE: PE takes one ready head, where there is one (R52). -/
def execHeadTake (s : State) : Host.Outcome State Fault Refusal :=
  .next (match s.nextHead with
    | none => s
    | some i => (s.takeHead i).closeEvent)

/-! ### The return of an operation to PE (R60 to R67) -/

/-- An entry takes a new value as its row leaves flight; every head stalled on the row becomes READY (R60 to R67).
Where the map has no such entry the answer is dropped. -/
def State.landRow (s : State) (f : FrameId) (row : Nat) (h : RowEntry → RowEntry) : State :=
  match s.rowEntry f row with
  | none => s
  | some e => (s.setRow f row { h e with inFlight := .no }).readyStalled f row

/-- A stale operation returns: its answer is discarded (R67). -/
def State.landStale (s : State) (o : WriteOp) : State := s.landRow o.slot o.row id

/-- The entry with its pending line confirmed (R60). -/
def RowEntry.confirmed (e : RowEntry) (firmThreshold : Nat) : RowEntry :=
  match e.inFlight with
  | .write (some l) => { e with state := gradeLine firmThreshold l }
  | .write none => e
  | .copy => e
  | .no => e

/-- A write is confirmed (R60, R67). -/
def State.landWrite (s : State) (o : WriteOp) : State :=
  if o.stale then s.landStale o
  else s.landRow o.slot o.row (fun e => e.confirmed s.storeConfig.firmThreshold)

/-- A write has failed: the row is DAMAGED and the error logged (R61, R67). -/
def State.failWrite (s : State) (o : WriteOp) (kind : ErrorKind) : State :=
  if o.stale then s.landStale o
  else
    (s.landRow o.slot o.row (fun e => { e with state := .damaged o.pass })).memoryError o.slot o.row
      (memoryReport kind o.slot o.row o.pass 1)

/-- A copy is confirmed: the row is preserved, whatever has become of the view since (R65, R67; log 15). -/
def State.landCopy (s : State) (o : WriteOp) (p : PoolRow) : State :=
  if o.stale then s.landStale o
  else s.landRow o.slot o.row (fun e => { e with preserved := some p })

/-- A copy has failed: its pool row is given back, the row is lost to the view, and the error logged (R65, R67). -/
def State.failCopy (s : State) (o : WriteOp) (p : PoolRow) (kind : ErrorKind) : State :=
  if o.stale then s.landStale o
  else
    ((s.returnPoolRow p o.slot o.row).landRow o.slot o.row (fun e => { e with lost := true })).memoryError
      o.slot o.row (memoryReport kind o.slot o.row o.pass 2)

/-- The entry of a row whose copy read a wrong check word (R62, R65). -/
def RowEntry.copyCorrupt (e : RowEntry) (pass : Nat) : RowEntry :=
  { e with state := .damaged (e.state.passOf.getD pass), lost := true }

/-- A copy's read half has found the check word wrong (R62, R65, R67). -/
def State.corruptCopy (s : State) (o : WriteOp) (p : PoolRow) : State :=
  if o.stale then s.landStale o
  else
    let frame := (s.frame o.slot).pass
    let pass := ((s.rowEntry o.slot o.row).bind (fun e => e.state.passOf)).getD frame
    ((s.returnPoolRow p o.slot o.row).landRow o.slot o.row (fun e => e.copyCorrupt frame)).memoryError
      o.slot o.row (memoryReport .readCorrupt o.slot o.row pass 3)

end Sys2Proof.Machine
end

