-- ==== Sys2Proof/Machine/Memory.lean ====
section
/-! DEFINITION. The events of the picture memory (chapter 6): its reports on writes, copies and reads, and the
expiries of their timers. A report on an operation that is not outstanding, or that memory can no longer answer,
names no event and changes nothing (log 2, log 9). -/

namespace Sys2Proof.Machine

/-- Memory reports on a write-class operation: it answers no earlier one, the place is freed (R117, R119). -/
def State.reportOp (s : State) (n : Nat) : State := (s.answered n).retireOp n

/-- WRITE_CONFIRMED: the store has been carried out (R119, R120), and PE confirms the row (R60). -/
def execWriteConfirmed (issued : Nat) (s : State) : Host.Outcome State Fault Refusal :=
  .next (match s.answerableOp issued with
    | none => s
    | some o =>
      match o.kind with
      | .rowWrite _ => (((s.storeRecord o).reportOp issued).landWrite o)
      | .rowCopy _ _ => s)

/-- WRITE_FAILED: memory refused a row write (R119, R61). -/
def execWriteFailed (issued : Nat) (s : State) : Host.Outcome State Fault Refusal :=
  .next (match s.answerableOp issued with
    | none => s
    | some o =>
      match o.kind with
      | .rowWrite _ => ((s.reportOp issued).failWrite o .writeFailed).closeEvent
      | .rowCopy _ _ => s)

/-- COPY_CONFIRMED: both halves of a copy have been carried out (R121), and PE records the pool row (R65). -/
def execCopyConfirmed (issued : Nat) (s : State) : Host.Outcome State Fault Refusal :=
  .next (match s.answerableOp issued with
    | none => s
    | some o =>
      match o.kind with
      | .rowWrite _ => s
      | .rowCopy p _ => (((s.storeRecord o).reportOp issued).landCopy o p))

/-- COPY_FAILED: memory refused the pool write of a copy (R121, R65). -/
def execCopyFailed (issued : Nat) (s : State) : Host.Outcome State Fault Refusal :=
  .next (match s.answerableOp issued with
    | none => s
    | some o =>
      match o.kind with
      | .rowWrite _ => s
      | .rowCopy p _ => ((s.reportOp issued).failCopy o p .writeFailed).closeEvent)

/-- COPY_READ_CORRUPT: the read half of a copy found the check word wrong (R121, R62, R65). -/
def execCopyReadCorrupt (issued : Nat) (s : State) : Host.Outcome State Fault Refusal :=
  .next (match s.answerableOp issued with
    | none => s
    | some o =>
      match o.kind with
      | .rowWrite _ => s
      | .rowCopy p _ => ((s.reportOp issued).corruptCopy o p).closeEvent)

/-- CONFIRMATION_TIMEOUT: no report within 2 ms of issue; the operation returns WRITE_TIMEOUT (R119, R61, R65). -/
def execConfirmationTimeout (issued : Nat) (s : State) : Host.Outcome State Fault Refusal :=
  .next (match s.issuedOp issued with
    | none => s
    | some o =>
      let s1 := (s.rememberLate issued (some o)).retireOp issued
      match o.kind with
      | .rowWrite _ => (s1.failWrite o .writeTimeout).closeEvent
      | .rowCopy p _ => (s1.failCopy o p .writeTimeout).closeEvent)

/-- LATE_REPORT: a report on an operation that has returned by its timer is discarded; what memory carried out
stays in the record (R119, R120, R123). -/
def execLateReport (issued : Nat) (carriedOut : Bool) (s : State) : Host.Outcome State Fault Refusal :=
  .next (match s.late.find? (fun l => l.issued == issued) with
    | none => s
    | some l =>
      match l.op with
      | none => s.answered issued
      | some o => if carriedOut then (s.storeRecord o).answered issued else s.answered issued)

/-- READ_DATA: the data of a read comes back (R122); `returned` is what came back where it is not what memory holds
(log 10). A row read of the seam engine, or a discarded one, lets its search go on (R107, R110). -/
def execReadData (holder : ReadHolder) (returned : Option (List Byte)) (s : State) :
    Host.Outcome State Fault Refusal :=
  .next (match s.holder holder with
    | none => s
    | some r =>
      match r.issued with
      | none => s
      | some n =>
        if n < s.answerFloor then s
        else
          let bytes := returned.getD (s.heldRecord r)
          ((s.answered n).returnRead holder r (some bytes)).closeEvent)

/-- READ_TIMEOUT: an issued read with no data within 2 ms is completed with none (R123). -/
def execReadTimeout (holder : ReadHolder) (s : State) : Host.Outcome State Fault Refusal :=
  .next (match s.holder holder with
    | none => s
    | some r =>
      match r.issued with
      | none => s
      | some n => ((s.rememberLate n none).returnRead holder r none).closeEvent)

end Sys2Proof.Machine
end

