-- ==== Sys2Proof/Machine/Cursors.lean ====
section
/-! DEFINITION. The cursor and read commands (chapter 8). -/

namespace Sys2Proof.Machine

/-! ### Attachments and windows (R139 to R143) -/

/-- The attachment a command names, where its slot or group number is in range (R140). -/
def attachmentOf (kind : AttachKind) (number : Nat) : Option Attachment :=
  match kind with
  | .current => (indexOf 24 number).map .current
  | .previous => (indexOf 24 number).map .previous
  | .group => (indexOf 8 number).map .group

/-- The refusals of an attachment by the state of what it names: NO_SUCH, FAULTED, NO_VIEW (R140). -/
def State.attachRefusal (s : State) : Attachment → Option Status
  | .current f =>
    match (s.frame f).state with
    | .free => some .noSuch
    | .faulted => some .faulted
    | _ => none
  | .previous f =>
    match (s.frame f).state with
    | .free => some .noSuch
    | .faulted => some .faulted
    | _ => if (s.frame f).view.isNone then some .noView else none
  | .group g => if (s.group g).state = .undefined then some .noSuch else none

/-- The rows of an attachment (R139). -/
def State.attachmentRows (s : State) : Attachment → Nat
  | .current f => ((s.frame f).geometry.map Geometry.rows).getD 0
  | .previous f => ((s.frame f).geometry.map Geometry.rows).getD 0
  | .group g => (s.group g).height

/-- The step and window length are ones a cursor can hold (R140). -/
def stepAndLengthAllowed (step : Int) (length : Option Nat) : Bool :=
  decide (step ≠ 0 ∧ -16 ≤ step ∧ step ≤ 16) && length != some 0

/-- What CURSOR_OPEN or CURSOR_SET asks of a cursor, its defaults already taken for the step (R140, R141). -/
structure CursorWish where
  attachment : Option Attachment
  window     : Option (Nat × Nat)
  position   : Option Nat
  step       : Int
  follow     : Bool
  retain     : Bool
deriving DecidableEq, Repr

/-- The cursor a wish gives, or the status of the first case of R140 after IN_USE that applies. -/
def State.grantCursor (s : State) (w : CursorWish) : Except Status CursorFields :=
  match w.attachment with
  | none => .error .badRequest
  | some a =>
    if stepAndLengthAllowed w.step (w.window.map Prod.snd) then
      match s.attachRefusal a with
      | some st => .error st
      | none =>
        let rows := s.attachmentRows a
        let base := (w.window.map Prod.fst).getD 0
        let length := (w.window.map Prod.snd).getD rows
        let position := w.position.getD (defaultPosition base length w.step)
        if base + length ≤ rows ∧ base ≤ position ∧ position < base + length then
          .ok { attachment := a, position := position, step := w.step, base := base, length := length
                follow := w.follow, retain := w.retain }
        else .error .badRequest
    else .error .badRequest

/-- A cursor attaches: the view's count, the pins (R140). -/
def State.attachCursor (s : State) (c : CursorId) (k : CursorFields) : State :=
  let s1 := match k.attachment with
    | .previous f => s.attachPrevious f
    | .current _ => s
    | .group _ => s
  let s2 := if k.retain then s1.pinCursor c k.attachment else s1
  s2.setCursor c { slot := .opened k, job := none }

/-- A cursor detaches and is CLOSED: it leaves every pin holder set, and a PREVIOUS cursor its view (R142). -/
def State.detachCursor (s : State) (c : CursorId) : State :=
  match (s.cursor c).openFields with
  | none => s.modifyCursor c (fun x => { x with slot := .closed })
  | some k =>
    let s1 := (s.unpinCursor c).modifyCursor c (fun x => { x with slot := .closed })
    match k.attachment with
    | .previous f => s1.detachPrevious f
    | .current _ => s1
    | .group _ => s1

/-- The classes CURSOR_OPEN and CURSOR_SET need (R139, R176). -/
def cursorClasses (retain : Bool) : List CommandClass := if retain then [.read, .pin] else [.read]

/-- CURSOR_OPEN (R140). -/
def execCursorOpen (port : ClientId) (tag : Nat) (a : CursorOpenArgs) (s : State) :
    Host.Outcome State Fault Refusal :=
  .next (s.request port tag (cursorClasses a.retain) (fun s =>
    let c := cursorOf port a.cursor
    match (s.cursor c).slot with
    | .opened _ => s.answer port .inUse []
    | .lost _ => s.answer port .inUse []
    | .closed =>
      match s.grantCursor { attachment := attachmentOf a.kind a.number, window := a.window, position := a.position
                            step := a.step.getD 1, follow := a.follow, retain := a.retain } with
      | .error st => s.answer port st []
      | .ok k => (s.attachCursor c k).answer port .ok (beBytes 2 k.position)))

/-- The record that a CURSOR_SET asks for: fields not given keep their values, and a new attachment takes the whole
of itself with a default position unless they are given (R141; log 18). -/
def CursorFields.wished (k : CursorFields) (a : CursorSetArgs) : CursorWish :=
  let named := match a.attachment with
    | none => some k.attachment
    | some (kind, number) => attachmentOf kind number
  let kept := decide (named = some k.attachment)
  { attachment := named
    window := if a.window.isSome then a.window else if kept then some (k.base, k.length) else none
    position :=
      if a.position.isSome then a.position
      else if kept ∨ a.window.isSome then some k.position
      else none
    step := a.step.getD k.step
    follow := (a.hints.map Prod.fst).getD k.follow
    retain := (a.hints.map Prod.snd).getD k.retain }

/-- The new fields are stored together, with what the change of attachment or of RETAIN brings (R141). -/
def State.storeCursor (s : State) (c : CursorId) (old new : CursorFields) : State :=
  if old.attachment ≠ new.attachment then (s.detachCursor c).attachCursor c new
  else
    let s1 :=
      if old.retain = new.retain then s
      else if new.retain then s.pinCursor c new.attachment
      else s.unpinCursor c
    s1.modifyCursor c (fun x => { x with slot := .opened new })

/-- CURSOR_SET (R141). -/
def execCursorSet (port : ClientId) (tag : Nat) (a : CursorSetArgs) (s : State) :
    Host.Outcome State Fault Refusal :=
  .next (s.request port tag (cursorClasses ((a.hints.map Prod.snd).getD false)) (fun s =>
    let c := cursorOf port a.cursor
    match (s.cursor c).slot with
    | .closed => s.answer port .noSuch []
    | .lost _ => s.answer port .lost []
    | .opened k =>
      match s.grantCursor (k.wished a) with
      | .error st => s.answer port st []
      | .ok new => (s.storeCursor c k new).answer port .ok (beBytes 2 new.position)))

/-- CURSOR_CLOSE (R142). -/
def execCursorClose (port : ClientId) (tag : Nat) (cursor : Fin 2) (s : State) : Host.Outcome State Fault Refusal :=
  .next (s.request port tag [.read] (fun s =>
    let c := cursorOf port cursor
    match (s.cursor c).slot with
    | .closed => s.answer port .noSuch []
    | .lost _ => (s.detachCursor c).answer port .ok []
    | .opened _ => (s.detachCursor c).answer port .ok []))

/-! ### Reads (R146, R148) -/

/-- A read command on a cursor: BAD_REQUEST for its range, then NO_SUCH on a CLOSED cursor and LOST on a LOST one
(R146, R148; log 17). -/
def State.readCommand (s : State) (port : ClientId) (c : CursorId) (allowed : Bool) (k : JobKind) : State :=
  if allowed then
    match (s.cursor c).slot with
    | .closed => s.answer port .noSuch []
    | .lost _ => s.answer port .lost []
    | .opened _ => s.startJob c k
  else s.answer port .badRequest []

/-- READ_NEXT (R146). -/
def execReadNext (port : ClientId) (tag : Nat) (cursor : Fin 2) (count : Nat) (s : State) :
    Host.Outcome State Fault Refusal :=
  .next (s.request port tag [.read] (fun s =>
    s.readCommand port (cursorOf port cursor) (decide (1 ≤ count ∧ count ≤ 8)) (.readNext count)))

/-- READ_AT (R148). -/
def execReadAt (port : ClientId) (tag : Nat) (cursor : Fin 2) (offset : Int) (s : State) :
    Host.Outcome State Fault Refusal :=
  .next (s.request port tag [.read] (fun s =>
    s.readCommand port (cursorOf port cursor) (decide (-64 ≤ offset ∧ offset ≤ 64)) (.readAt offset)))

/-! ### Map reads and scans (R151, R152) -/

/-- The report of a row by its view: the row entry and naming blocks (R182). -/
def RowView.bytes (v : RowView) : List Byte := v.showing.report ++ namingBytes v.naming

/-- The refusals of READ_MAP after the ranges: NO_SUCH, NO_VIEW (R151). -/
def State.mapRefusal (s : State) : Attachment → Option Status
  | .current f => if (s.frame f).state = .free then some .noSuch else none
  | .previous f =>
    if (s.frame f).state = .free then some .noSuch
    else if (s.frame f).view.isNone then some .noView
    else none
  | .group g => if (s.group g).state = .undefined then some .noSuch else none

/-- The body of a READ_MAP response (R182). -/
def State.mapBody (s : State) (a : Attachment) (first count : Nat) : List Byte :=
  let n := min count (s.attachmentRows a - first)
  byteOf n :: (List.range n).flatMap (fun k => beBytes 2 (first + k) ++ (s.rowView a (first + k)).bytes)

/-- READ_MAP (R151). -/
def execReadMap (port : ClientId) (tag : Nat) (kind : AttachKind) (number first count : Nat) (s : State) :
    Host.Outcome State Fault Refusal :=
  .next (s.request port tag [.read] (fun s =>
    match attachmentOf kind number with
    | none => s.answer port .badRequest []
    | some a =>
      if 1 ≤ count ∧ count ≤ 64 then
        match s.mapRefusal a with
        | some st => s.answer port st []
        | none =>
          if first < s.attachmentRows a then s.answer port .ok (s.mapBody a first count)
          else s.answer port .badRequest []
      else s.answer port .badRequest []))

/-- Test rows from position `p`, `limit` of them at most: the last row tested and whether the condition held there
and whether the limit was reached (R152). -/
def State.scanFrom (s : State) (x : CursorFields) (c : ScanCondition) : Nat → Nat → Nat × Bool × Bool
  | 0, p => (p, false, true)
  | limit + 1, p =>
    if c.holds (s.rowView x.attachment p).showing then (p, true, limit == 0)
    else if limit = 0 then (p, false, true)
    else s.scanFrom x c limit (moveInWindow x.base x.length p x.step)

/-- SCAN (R152). -/
def execScan (port : ClientId) (tag : Nat) (cursor : Fin 2) (condition parameter limit : Nat) (s : State) :
    Host.Outcome State Fault Refusal :=
  .next (s.request port tag [.read] (fun s =>
    let c := cursorOf port cursor
    match scanConditionOf condition parameter with
    | none => s.answer port .badRequest []
    | some cond =>
      if 1 ≤ limit ∧ limit ≤ 2048 then
        match (s.cursor c).slot with
        | .closed => s.answer port .noSuch []
        | .lost _ => s.answer port .lost []
        | .opened x =>
          let (row, hit, spent) := s.scanFrom x cond limit x.position
          let v := s.rowView x.attachment row
          (s.modifyCursor c (fun y => { y with slot := .opened { x with position := row } })).answer port .ok
            (beBytes 2 row ++ v.bytes ++ [byteOf (setNat [hit, spent])])
      else s.answer port .badRequest []))

end Sys2Proof.Machine
end

