-- ==== Sys2Proof/Machine/Queries.lean ====
section
/-! DEFINITION. The records as a client is given them (R182) and the queries (R47, R75, R97, R179). -/

namespace Sys2Proof.Machine

/-! ### Record blocks (R182) -/

/-- The source block, 28 bytes (R47, R182). -/
def Source.bytes (x : Source) : List Byte :=
  [byteOf x.state.code] ++ optBytes 1 (x.boundFrame.map Fin.val) ++ optBytes 1 x.boundPass ++ beBytes 2 x.reference
    ++ [flagByte x.unphased] ++ optBytes 2 x.expectedSeq
    ++ [byteOf x.misses, byteOf x.ring.length, flagByte x.holdLine, flagByte x.held.isSome,
      byteOf x.config.phasingCount, byteOf x.config.skewLimit, byteOf x.config.trackWindow,
      byteOf x.config.missedLimit, byteOf x.config.fadeLimit, flagByte x.config.adHoc]
    ++ beBytes 2 x.counters.received ++ beBytes 2 x.counters.placed ++ beBytes 2 x.counters.mergedOut
    ++ beBytes 2 x.counters.rejected ++ beBytes 2 x.counters.overrun

/-- The geometry fields of a frame record: drum class, line rate, direction, expected rows. -/
def geometryBytes : Option Geometry → List Byte
  | none => absentBytes 5
  | some g => [byteOf (drumCode g.drum), byteOf (rateCode g.rate), byteOf (directionCode g.direction)] ++ beBytes 2 g.rows

/-- The view fields of a frame record: slot, generation, state, pool rows held, attached cursors. -/
def viewBytes : Option (ViewId × View) → List Byte
  | none => absentBytes 6
  | some (v, x) =>
    [byteOf v.val, byteOf x.generation, flagByte x.torn] ++ beBytes 2 x.held ++ [byteOf x.cursors]

/-- The frame record block, 74 bytes (R75, R182). -/
def State.frameBytes (s : State) (f : FrameId) : List Byte :=
  let x := s.frame f
  [byteOf x.state.code] ++ optBytes 1 (x.entry.map Fin.val) ++ optBytes 1 (x.root.map Fin.val) ++ beBytes 2 x.day
    ++ [byteOf x.station] ++ beBytes 2 x.product ++ geometryBytes x.geometry
    ++ [byteOf x.pass, byteOf (setNat x.joined.toList)]
    ++ beBytes 2 x.coverage ++ beBytes 2 x.missed ++ beBytes 2 x.damaged
    ++ optBytes 2 (x.settledAt.map Prod.fst) ++ optBytes 3 (x.settledAt.map Prod.snd)
    ++ [byteOf x.mark, byteOf x.title.length] ++ (x.title ++ List.replicate (32 - x.title.length) 0#8)
    ++ beBytes 2 x.pins.code ++ viewBytes (s.frameView f)
    ++ optBytes 1 (x.mosaic.map (fun m => m.1.val)) ++ optBytes 1 (x.mosaic.map Prod.snd)
    ++ beBytes 2 x.stamp ++ [byteOf (setNat [x.enable, x.pendingMark]), flagByte x.memoryError]

/-- A section of a group record, 11 bytes (R97, R182). -/
def State.sectionBytes (s : State) (x : MosaicSection) (top : Int) : List Byte :=
  [byteOf x.entry.val] ++ beBytes 2 x.nominal ++ optBytes 1 (x.frame.map Fin.val)
    ++ optBytes 1 (x.frame.map (fun f => (s.frame f).state.code)) ++ beBytes 2 top.toNat
    ++ optBytes 1 (x.seam.map Seam.overlap)
    ++ [optSignedByte (x.seam.map Seam.adjustment)]
    ++ optBytes 1 (x.seam.map (fun m => m.state.code)) ++ optBytes 1 (x.seam.bind Seam.score)

/-- The group record block, 7 bytes and 11 for each section (R97, R182). -/
def State.groupBytes (s : State) (g : GroupId) : List Byte :=
  let x := s.group g
  [byteOf x.state.code] ++ optBytes 1 (x.drum.map drumCode) ++ beBytes 2 x.height ++ beBytes 2 x.stamp
    ++ [byteOf x.sections.length]
    ++ (x.sections.zip (s.tops g)).flatMap (fun p => s.sectionBytes p.1 p.2)

/-- The item of a slot in FRAME_LIST, 9 bytes (R179, R182). -/
def Frame.listBytes (x : Frame) : List Byte :=
  [byteOf x.state.code]
    ++ (if x.state = .free then absentBytes 6
        else optBytes 1 (x.entry.map Fin.val) ++ beBytes 2 x.day ++ [byteOf x.pass] ++ beBytes 2 x.coverage)
    ++ beBytes 2 x.stamp

/-- The body of GET_INFO for a port, 17 bytes (R179, R182). -/
def State.infoBytes (s : State) (port : ClientId) : List Byte :=
  beBytes 2 1 ++ beBytes 2 340 ++ [1#8, byteOf port.val, (s.port port).mask, flagByte s.clock.isSet, 24#8, 64#8, 4#8]
    ++ beBytes 2 512 ++ [8#8, 3#8, 6#8, 8#8]

/-! ### Queries -/

/-- GET_INFO (R179). -/
def execGetInfo (port : ClientId) (tag : Nat) (s : State) : Host.Outcome State Fault Refusal :=
  .next (s.request port tag [] (fun s => s.answer port .ok (s.infoBytes port)))

/-- SOURCE_STATUS (R47). -/
def execSourceStatus (port : ClientId) (tag source : Nat) (s : State) : Host.Outcome State Fault Refusal :=
  .next (s.request port tag [.read] (fun s =>
    match indexOf 3 source with
    | none => s.answer port .badRequest []
    | some i => s.answer port .ok (s.source i).bytes))

/-- FRAME_LIST (R179). -/
def execFrameList (port : ClientId) (tag : Nat) (s : State) : Host.Outcome State Fault Refusal :=
  .next (s.request port tag [.read] (fun s =>
    s.answer port .ok (allFrames.flatMap (fun f => (s.frame f).listBytes))))

/-- FRAME_INFO (R75, R179). -/
def execFrameInfo (port : ClientId) (tag slot : Nat) (s : State) : Host.Outcome State Fault Refusal :=
  .next (s.request port tag [.read] (fun s =>
    match indexOf 24 slot with
    | none => s.answer port .badRequest []
    | some f => s.answer port .ok (s.frameBytes f)))

/-- SCHEDULE_READ (R179). -/
def execScheduleRead (port : ClientId) (tag entry : Nat) (s : State) : Host.Outcome State Fault Refusal :=
  .next (s.request port tag [.read] (fun s =>
    match indexOf 64 entry with
    | none => s.answer port .badRequest []
    | some e => s.answer port .ok (s.entryAt e).bytes))

/-- MOSAIC_INFO (R97). -/
def execMosaicInfo (port : ClientId) (tag group : Nat) (s : State) : Host.Outcome State Fault Refusal :=
  .next (s.request port tag [.read] (fun s =>
    match indexOf 8 group with
    | none => s.answer port .badRequest []
    | some g => s.answer port .ok (s.groupBytes g)))

end Sys2Proof.Machine
end

