-- ==== Sys2Proof/Machine/Reservations.lean ====
section
/-! DEFINITION. The reservation unit: RESERVE, the commits, the explicit pins (chapter 9). -/

namespace Sys2Proof.Machine

/-! ### RESERVE (R157) -/

/-- The target a command names, where its number is in range (R157). -/
def targetOf (kind : TargetKind) (number : Nat) : Option Target :=
  match kind with
  | .entry => (indexOf 64 number).map .entry
  | .frame => (indexOf 24 number).map .frame
  | .group => (indexOf 8 number).map .group

/-- A target's present change stamp (R156). -/
def State.stampOf (s : State) : Target → Nat
  | .entry e => (s.entryAt e).stamp
  | .frame f => (s.frame f).stamp
  | .group g => (s.group g).stamp

/-- A target's record as RESERVE gives it (R157, R182). -/
def State.recordOf (s : State) : Target → List Byte
  | .entry e => (s.entryAt e).bytes
  | .frame f => s.frameBytes f
  | .group g => s.groupBytes g

/-- The target is a FREE frame (R157). -/
def State.targetFree (s : State) : Target → Bool
  | .entry _ => false
  | .frame f => (s.frame f).state == .free
  | .group _ => false

/-- RESERVE records a target with its present stamp (R157). -/
def execReserve (port : ClientId) (tag : Nat) (kind : TargetKind) (number : Nat) (s : State) :
    Host.Outcome State Fault Refusal :=
  .next (s.request port tag [reserveClass kind] (fun s =>
    match targetOf kind number with
    | none => s.answer port .badRequest []
    | some t =>
      if s.targetFree t then s.answer port .noSuch []
      else
        (s.setReservation port { target := some t, stamp := s.stampOf t, valid := true }).answer port .ok
          (s.recordOf t)))

/-! ### COMMIT (R158) -/

/-- A CONFLICT with its reason and value (R182). -/
def State.conflict (s : State) (port : ClientId) (reason value : Nat) : State :=
  s.answer port .conflict (byteOf reason :: beBytes 2 value)

/-- The client's reservation is made invalid (R158). -/
def State.expireReservation (s : State) (port : ClientId) : State :=
  s.setReservation port { s.reservation port with valid := false }

/-- RVU's tests of a commit, in their order; the operation `run` goes to its owner when all pass. The reservation is made
invalid whatever the answer (R158). -/
def State.commit (s : State) (port : ClientId) (target : Option Target) (run : State → State) : State :=
  let r := s.reservation port
  let s1 := s.expireReservation port
  match target with
  | none => s1.answer port .badRequest []
  | some t =>
    if r.valid = false then s1.conflict port 0 0
    else if r.target ≠ some t then s1.conflict port 1 0
    else if r.stamp ≠ s.stampOf t then s1.conflict port 2 (s.stampOf t)
    else run s1

/-- A commit has been applied: OK with the target's new stamp (R158). -/
def State.committed (s : State) (port : ClientId) (t : Target) : State :=
  s.answer port .ok (beBytes 2 (s.stampOf t))

/-! ### Schedule commits (R160, R161) -/

/-- The entry state a SCHEDULE_WRITE may give (R160, R180). -/
def modeOfCode : Nat → Option EntryMode
  | 1 => some .active
  | 2 => some .suspended
  | _ => none

/-- The direction a byte codes (R180). -/
def directionOfCode : Nat → Option Direction
  | 0 => some .down
  | 1 => some .up
  | _ => none

/-- The repeat-of a byte gives: an entry, or absent (R180). -/
def repeatOfByte (n : Nat) : Option (Option EntryId) :=
  if n = 255 then some none else (indexOf 64 n).map some

/-- The numeric fields lie in the ranges of R3, the frequency list of 1 to 4 included. -/
def entryInRange (a : EntryArgs) : Bool :=
  decide (a.station ≤ 255 ∧ 1 ≤ a.product ∧ a.product ≤ 4095 ∧ a.startMinute ≤ 1439 ∧ a.tolerance ≤ 15
    ∧ 1 ≤ a.frequencyCount ∧ a.frequencyCount ≤ 4 ∧ a.frequencyCount ≤ a.frequencies.length
    ∧ 1 ≤ a.rows ∧ a.rows ≤ 2048 ∧ a.dayShift ≤ 1)
    && (a.frequencies.take a.frequencyCount).all (fun f => decide (20000 ≤ f ∧ f ≤ 300000))

/-- The state and fields a SCHEDULE_WRITE gives, where each lies in its range (R160, first case). -/
def entryFieldsOf (a : EntryArgs) : Option (EntryMode × EntryFields) :=
  match modeOfCode a.state, drumOfCode a.drum, rateOfCode a.rate, directionOfCode a.direction,
      repeatOfByte a.repeatOf with
  | some mode, some drum, some rate, some direction, some repeatOf =>
    if entryInRange a then
      some (mode,
        { station := a.station, product := a.product, startMinute := a.startMinute, tolerance := a.tolerance
          frequencies := a.frequencies.take a.frequencyCount, drum := drum, rate := rate, direction := direction
          rows := a.rows, days := a.days.setWidth 7, repeatOf := repeatOf, dayShift := a.dayShift })
    else none
  | _, _, _, _, _ => none

/-- A RECEIVING or SETTLING frame is bound through the entry (R160, R161). -/
def State.entryInUse (s : State) (e : EntryId) : Bool :=
  allFrames.any (fun f => (s.frame f).state.isRunning && (s.frame f).entry == some e)

/-- Another entry that is not VACANT names this one as its repeat-of (R160). -/
def State.isRepeated (s : State) (e : EntryId) : Bool := allEntries.any (fun k => k != e && s.repeatOf k == some e)

/-- The repeat-of a write gives is refused (R160). -/
def State.badRepeat (s : State) (e : EntryId) : Option EntryId → Bool
  | none => false
  | some r => r == e || (s.repeatOf r).isSome || s.isRepeated e

/-- An entry takes a new definition: the writer is the committing client, the stamp advances, and SCHEDULE_CHANGED is
raised (R160, R161). -/
def State.changeEntry (s : State) (port : ClientId) (e : EntryId) (d : Option (EntryMode × EntryFields))
    (op : ScheduleOp) : State :=
  (s.setEntry e { definition := d, writer := some port, stamp := next16 (s.entryAt e).stamp }).raise (.client port)
    (.scheduleChanged e op)

/-- SBU takes or refuses a SCHEDULE_WRITE (R160). -/
def State.writeEntry (s : State) (port : ClientId) (e : EntryId) (a : EntryArgs) : State :=
  match entryFieldsOf a with
  | none => s.answer port .badRequest []
  | some (mode, d) =>
    if d.frequencies.Nodup ∧ s.badRepeat e d.repeatOf = false then
      if s.entryInUse e then s.answer port .inUse []
      else (s.changeEntry port e (some (mode, d)) .write).committed port (.entry e)
    else s.answer port .badRequest []

/-- SCHEDULE_WRITE (R158, R160). -/
def execScheduleWrite (port : ClientId) (tag entry : Nat) (a : EntryArgs) (s : State) :
    Host.Outcome State Fault Refusal :=
  .next (s.request port tag [.schedule] (fun s =>
    match indexOf 64 entry with
    | none => s.commit port none id
    | some e => s.commit port (some (.entry e)) (fun s => s.writeEntry port e a)))

/-- SBU takes or refuses a SCHEDULE_SUSPEND (R161). -/
def State.suspendEntry (s : State) (port : ClientId) (e : EntryId) : State :=
  match (s.entryAt e).definition with
  | none => s.answer port .noSuch []
  | some (_, d) => (s.changeEntry port e (some (.suspended, d)) .suspend).committed port (.entry e)

/-- SCHEDULE_SUSPEND (R158, R161). -/
def execScheduleSuspend (port : ClientId) (tag entry : Nat) (s : State) : Host.Outcome State Fault Refusal :=
  .next (s.request port tag [.schedule] (fun s =>
    match indexOf 64 entry with
    | none => s.commit port none id
    | some e => s.commit port (some (.entry e)) (fun s => s.suspendEntry port e)))

/-- SBU takes or refuses a SCHEDULE_VACATE; reservations of the entry fall (R159, R161). -/
def State.vacateEntry (s : State) (port : ClientId) (e : EntryId) : State :=
  if (s.entryAt e).definition.isNone then s.answer port .noSuch []
  else if s.entryInUse e then s.answer port .inUse []
  else ((s.changeEntry port e none .vacate).dropReservations (.entry e)).committed port (.entry e)

/-- SCHEDULE_VACATE (R158, R161). -/
def execScheduleVacate (port : ClientId) (tag entry : Nat) (s : State) : Host.Outcome State Fault Refusal :=
  .next (s.request port tag [.schedule] (fun s =>
    match indexOf 64 entry with
    | none => s.commit port none id
    | some e => s.commit port (some (.entry e)) (fun s => s.vacateEntry port e)))

/-! ### Frame commits (R162, R163) -/

/-- A title of 0 to 32 characters from 32 to 126, and a mark of 0 to 255 (R162). -/
def annotationAllowed (mark : Nat) (title : List Byte) : Bool :=
  decide (mark ≤ 255 ∧ title.length ≤ 32) && title.all (fun b => decide (32 ≤ b.toNat ∧ b.toNat ≤ 126))

/-- FLU takes or refuses a FRAME_ANNOTATE (R162). -/
def State.annotate (s : State) (port : ClientId) (f : FrameId) (mark : Nat) (title : List Byte) : State :=
  if annotationAllowed mark title then
    (s.modifyFrame f (fun x => { x with title := title, mark := mark }.stamped)).committed port (.frame f)
  else s.answer port .badRequest []

/-- FRAME_ANNOTATE (R158, R162). -/
def execFrameAnnotate (port : ClientId) (tag slot mark : Nat) (title : List Byte) (s : State) :
    Host.Outcome State Fault Refusal :=
  .next (s.request port tag [.frameEdit] (fun s =>
    match indexOf 24 slot with
    | none => s.commit port none id
    | some f => s.commit port (some (.frame f)) (fun s => s.annotate port f mark title)))

/-- FLU takes or refuses a FRAME_RELEASE (R163). -/
def State.release (s : State) (port : ClientId) (f : FrameId) : State :=
  if (s.frame f).state.isRunning then s.answer port .inUse []
  else if 0 < (s.frame f).pins.othersThan port then
    s.answer port .pinned [byteOf ((s.frame f).pins.othersThan port)]
  else ((s.freeFrame f).committed port (.frame f)).closeEvent

/-- FRAME_RELEASE (R158, R163). -/
def execFrameRelease (port : ClientId) (tag slot : Nat) (s : State) : Host.Outcome State Fault Refusal :=
  .next (s.request port tag [.frameEdit] (fun s =>
    match indexOf 24 slot with
    | none => s.commit port none id
    | some f => s.commit port (some (.frame f)) (fun s => s.release port f)))

/-! ### Mosaic commits (R98, R99, R164) -/

/-- The group other than `g` that an entry of the list already belongs to, by the first such entry. -/
def State.otherGroup (s : State) (g : GroupId) (sections : List (Nat × Nat)) : Option GroupId :=
  sections.findSome? (fun p =>
    (indexOf 64 p.1).bind (fun e => (s.sectionOfEntry e).bind (fun x => if x.1 = g then none else some x.1)))

/-- Section `k` of a definition, or none where its entry is out of range or VACANT or its overlap outside 8 to 64
(R98). -/
def State.sectionOf (s : State) (k : Nat) (p : Nat × Nat) : Option MosaicSection :=
  match indexOf 64 p.1 with
  | none => none
  | some e =>
    match (s.entryAt e).definition with
    | none => none
    | some (_, d) =>
      if k = 0 then some { entry := e, nominal := d.rows, frame := none, seam := none }
      else if 8 ≤ p.2 ∧ p.2 ≤ 64 then
        some { entry := e, nominal := d.rows, frame := none
               seam := some { overlap := p.2, adjustment := 0, state := .none, score := none } }
      else none

/-- The sections of a definition from section `k` on, where each is one. -/
def State.sectionsOf (s : State) : Nat → List (Nat × Nat) → Option (List MosaicSection)
  | _, [] => some []
  | k, p :: rest =>
    match s.sectionOf k p, s.sectionsOf (k + 1) rest with
    | some x, some l => some (x :: l)
    | some _, none => none
    | none, _ => none

/-- The drum class and root of a section's entry. -/
def State.entryDrum (s : State) (e : EntryId) : Option DrumClass := (s.entryAt e).definition.map (fun d => d.2.drum)
def State.entryRoot (s : State) (e : EntryId) : EntryId := (s.repeatOf e).getD e

/-- The sections have distinct root entries, one drum class and their minimum rows (R98). -/
def State.sectionsAllowed (s : State) (drum : DrumClass) (l : List MosaicSection) : Bool :=
  decide ((l.map (fun x => s.entryRoot x.entry)).Nodup) && l.all (fun x => s.entryDrum x.entry == some drum)
    && (List.range l.length).all (fun k => l[k]?.all (fun x => decide (minimumRows l k ≤ x.nominal)))

/-- The drum class and sections a definition gives, or none for BAD_REQUEST (R98). -/
def State.definitionOf (s : State) (sections : List (Nat × Nat)) : Option (DrumClass × List MosaicSection) :=
  match s.sectionsOf 0 sections with
  | none => none
  | some [] => none
  | some (x :: rest) =>
    match s.entryDrum x.entry with
    | none => none
    | some drum =>
      if rest.length < 6 ∧ s.sectionsAllowed drum (x :: rest) = true then some (drum, x :: rest) else none

/-- The frame is one that section `k` may pick up at definition (R98). -/
def State.canPick (s : State) (g : GroupId) (k : Nat) (f : FrameId) : Bool :=
  (s.frame f).state.canFault && (s.frame f).mosaic.isNone
    && ((s.frame f).entry.bind s.matchingSection) == some (g, k) && s.fitsSection g k f

/-- The later settled of two frames, ties to the lower slot (R98). -/
def State.laterSettled (s : State) (best : Option FrameId) (f : FrameId) : Option FrameId :=
  match best with
  | none => some f
  | some b => if (s.frame b).settledTime < (s.frame f).settledTime then some f else some b

/-- The frame a section picks up at definition: RECEIVING or SETTLING, the lowest slot first; failing that the latest
settled (R98). -/
def State.pickFrame (s : State) (g : GroupId) (k : Nat) : Option FrameId :=
  let l := allFrames.filter (fun f => s.canPick g k f)
  match l.find? (fun f => (s.frame f).state.isRunning) with
  | some f => some f
  | none => l.foldl s.laterSettled none

/-- MU builds the group, picks up the frames that fit and tests for JOINING (R98, R102). -/
def State.defineGroup (s : State) (g : GroupId) (drum : DrumClass) (sections : List MosaicSection) : State :=
  let s1 := s.modifyGroup g (fun x => { x with drum := some drum, sections := sections })
  let s2 := (s.enterGroup s1 g .gathering).recomputeHeight g
  let s3 := (List.range sections.length).foldl (fun t k =>
    match t.pickFrame g k with
    | some f => s.takeFrame t g k f
    | none => t) s2
  s.testJoining s3 g

/-- MU takes or refuses a MOSAIC_DEFINE (R98, R164). -/
def State.define (s : State) (port : ClientId) (g : GroupId) (sections : List (Nat × Nat)) : State :=
  if (s.group g).state ≠ .undefined then s.answer port .inUse []
  else
    match s.otherGroup g sections with
    | some other => s.conflict port 3 other.val
    | none =>
      match s.definitionOf sections with
      | none => s.answer port .badRequest []
      | some (drum, l) => (s.defineGroup g drum l).committed port (.group g)

/-- MOSAIC_DEFINE (R98, R158, R164). -/
def execMosaicDefine (port : ClientId) (tag group : Nat) (sections : List (Nat × Nat)) (s : State) :
    Host.Outcome State Fault Refusal :=
  .next (s.request port tag [.mosaic] (fun s =>
    match indexOf 8 group with
    | none => s.commit port none id
    | some g => s.commit port (some (.group g)) (fun s => s.define port g sections)))

/-- MU takes or refuses a MOSAIC_DISSOLVE; reservations of the group fall (R99, R159). -/
def State.dissolve (s : State) (port : ClientId) (g : GroupId) : State :=
  if (s.group g).state = .undefined then s.answer port .noSuch []
  else ((s.dissolveGroup g).dropReservations (.group g)).committed port (.group g)

/-- MOSAIC_DISSOLVE (R99, R158, R164). -/
def execMosaicDissolve (port : ClientId) (tag group : Nat) (s : State) : Host.Outcome State Fault Refusal :=
  .next (s.request port tag [.mosaic] (fun s =>
    match indexOf 8 group with
    | none => s.commit port none id
    | some g => s.commit port (some (.group g)) (fun s => s.dissolve port g)))

/-! ### Explicit pins (R165) -/

/-- A client's explicit pin joins or leaves a frame's pin holders. -/
def Frame.setPin (x : Frame) (n : ClientId) (b : Bool) : Frame :=
  { x with pins := { x.pins with explicit := setMember x.pins.explicit n b } }

/-- The answer of PIN and UNPIN: the number of pin holders (R165). -/
def State.answerPins (s : State) (port : ClientId) (f : FrameId) : State :=
  s.answer port .ok [byteOf (s.frame f).pins.count]

/-- PIN (R165). -/
def execPin (port : ClientId) (tag slot : Nat) (s : State) : Host.Outcome State Fault Refusal :=
  .next (s.request port tag [.pin] (fun s =>
    match indexOf 24 slot with
    | none => s.answer port .badRequest []
    | some f =>
      if (s.frame f).state = .free then s.answer port .noSuch []
      else (s.modifyFrame f (fun x => x.setPin port true)).answerPins port f))

/-- UNPIN (R165); a slot above 23 is out of range as for PIN (log 17). -/
def execUnpin (port : ClientId) (tag slot : Nat) (s : State) : Host.Outcome State Fault Refusal :=
  .next (s.request port tag [.pin] (fun s =>
    match indexOf 24 slot with
    | none => s.answer port .badRequest []
    | some f =>
      if (s.frame f).state = .free ∨ (s.frame f).pins.explicit[port.val] = false then s.answer port .noSuch []
      else (s.modifyFrame f (fun x => x.setPin port false)).answerPins port f))

end Sys2Proof.Machine
end

