-- ==== Sys2Proof/Machine/NoticeCommands.lean ====
section
/-! DEFINITION. The notice commands (R168 to R173) and the error queue's commands (R136, R137). -/

namespace Sys2Proof.Machine

/-! ### Levels and thresholds (R168) -/

/-- The pairs name known kinds, none twice, at levels up to 7 (R168). -/
def levelsAllowed (pairs : List (Nat × Nat)) : Bool :=
  pairs.all (fun p => decide (1 ≤ p.1 ∧ p.1 ≤ 16 ∧ p.2 ≤ 7)) && decide ((pairs.map Prod.fst).Nodup)

/-- A level table with new levels stored (R168). -/
def storeLevels (levels : Vector Nat 16) (pairs : List (Nat × Nat)) : Vector Nat 16 :=
  pairs.foldl (fun l p => match indexOf 16 (p.1 - 1) with | some k => l.set k.val p.2 | none => l) levels

/-- A client's record with new levels, its pending pairs moved and the line recomputed (R168). -/
def NoticeClient.withLevels (c : NoticeClient) (pairs : List (Nat × Nat)) : NoticeClient :=
  let levels := storeLevels c.levels pairs
  { c with levels := levels, pendingSet := relevel levels c.pendingSet }.relit

/-- NOTICE_SET_LEVELS (R168). -/
def execNoticeSetLevels (port : ClientId) (tag : Nat) (pairs : List (Nat × Nat)) (s : State) :
    Host.Outcome State Fault Refusal :=
  .next (s.request port tag [.notice] (fun s =>
    if levelsAllowed pairs then (s.setClient port ((s.client port).withLevels pairs)).answer port .ok []
    else s.answer port .badRequest []))

/-- NOTICE_SET_THRESHOLD (R168). -/
def execNoticeSetThreshold (port : ClientId) (tag threshold : Nat) (s : State) :
    Host.Outcome State Fault Refusal :=
  .next (s.request port tag [.notice] (fun s =>
    if threshold ≤ 7 then
      (s.setClient port { s.client port with threshold := threshold }.relit).answer port .ok []
    else s.answer port .badRequest []))

/-! ### Summaries and acknowledgements (R171, R172) -/

/-- The pairs pending at a level, in the order of R171. -/
def NoticeClient.pairsAt (c : NoticeClient) (level : Nat) : List NoticePair :=
  c.pendingSet.filter (fun p => p.level == level)

/-- The body of NOTICE_SUMMARY (R171, R182). -/
def NoticeClient.summary (c : NoticeClient) (level : Nat) : List Byte :=
  let pairs := c.pairsAt level
  (List.range 7).map (fun k => byteOf (c.pairsAt (k + 1)).length)
    ++ [byteOf (min 32 pairs.length)] ++ (pairs.take 32).flatMap NoticePair.bytes
    ++ [byteOf (pairs.length - 32), flagByte (!pairs.isEmpty)]
    ++ (match pairs with
        | [] => absentBytes 8
        | p :: _ => p.bytes)

/-- NOTICE_SUMMARY (R171). -/
def execNoticeSummary (port : ClientId) (tag level : Nat) (s : State) : Host.Outcome State Fault Refusal :=
  .next (s.request port tag [.notice] (fun s =>
    if 1 ≤ level ∧ level ≤ 7 then s.answer port .ok ((s.client port).summary level)
    else s.answer port .badRequest []))

/-- The pair is of the kind and origin named (R172). -/
def NoticePair.isNamed (p : NoticePair) (kind sort number : Nat) : Bool :=
  decide (p.detail.kindCode = kind ∧ p.origin.code = (sort, number))

/-- A client's record with a pair acknowledged (R172). -/
def NoticeClient.without (c : NoticeClient) (kind sort number : Nat) : NoticeClient :=
  { c with pendingSet := c.pendingSet.filter (fun p => !p.isNamed kind sort number) }.relit

/-- NOTICE_ACK (R172). -/
def execNoticeAck (port : ClientId) (tag kind sort number countGiven count : Nat) (s : State) :
    Host.Outcome State Fault Refusal :=
  .next (s.request port tag [.notice] (fun s =>
    match (s.client port).pendingSet.find? (fun p => p.isNamed kind sort number) with
    | none => s.answer port .noSuch []
    | some p =>
      if yesOfByte countGiven = true ∧ count ≠ p.count then
        s.answer port .conflict ([byteOf p.count] ++ p.detail.bytes ++ [byteOf p.level])
      else (s.setClient port ((s.client port).without kind sort number)).answer port .ok []))

/-- NOTICE_RAISE (R173). -/
def execNoticeRaise (port : ClientId) (tag target code : Nat) (s : State) : Host.Outcome State Fault Refusal :=
  .next (s.request port tag [.relay] (fun s =>
    match indexOf 3 target with
    | none => s.answer port .badRequest []
    | some n =>
      if code ≤ 255 then
        (s.offerTo n (.client port) (.relay code)).answer port .ok
          [flagByte (decide (0 < (s.client n).levels[(15 : Fin 16)]))]
      else s.answer port .badRequest []))

/-! ### The error queue (R136, R137) -/

/-- ERRORS_PEEK (R136). -/
def execErrorsPeek (port : ClientId) (tag count : Nat) (s : State) : Host.Outcome State Fault Refusal :=
  .next (s.request port tag [.read] (fun s =>
    if 1 ≤ count ∧ count ≤ 8 then
      s.answer port .ok ([byteOf s.errors.length, byteOf (min count s.errors.length)]
        ++ (s.errors.take count).flatMap ErrorRecord.bytes)
    else s.answer port .badRequest []))

/-- A removed record with marking yes clears the mark of the frame it names (R137). -/
def State.clearMark (s : State) (r : ErrorRecord) : State :=
  match r.frame with
  | some f => if r.marking then s.modifyFrame f (fun x => { x with memoryError := false }) else s
  | none => s

/-- ERRORS_TAKE (R137). -/
def execErrorsTake (port : ClientId) (tag logNumber : Nat) (s : State) : Host.Outcome State Fault Refusal :=
  .next (s.request port tag [.read] (fun s =>
    match s.errors.findIdx? (fun r => r.number == logNumber) with
    | none => s.answer port .noSuch []
    | some k =>
      let taken := s.errors.take (k + 1)
      let s1 := taken.foldl State.clearMark { s with errors := s.errors.drop (k + 1) }
      s1.answer port .ok (byteOf taken.length :: taken.flatMap ErrorRecord.bytes)))

end Sys2Proof.Machine
end

