-- ==== Sys2Proof/Machine/System.lean ====
section
/-! DEFINITION. The configurations (R46, R70) and the resets: power-on, STORE_CLEAR, PORT_RESET (R175, R183, R184). -/

namespace Sys2Proof.Machine

/-! ### Configurations -/

/-- A field that is not given, or given within its range. -/
def givenWithin (low high : Nat) : Option Nat → Bool
  | none => true
  | some n => decide (low ≤ n ∧ n ≤ high)

/-- The values given lie in the ranges of R46; ad hoc capture is on or off (log 7). -/
def sourceArgsInRange (a : SourceConfigArgs) : Bool :=
  givenWithin 4 31 a.phasingCount && givenWithin 0 127 a.skewLimit && givenWithin 0 8 a.trackWindow
    && givenWithin 1 255 a.missedLimit && givenWithin 1 120 a.fadeLimit && givenWithin 0 1 a.adHoc

/-- The configuration with the values given stored together (R46). -/
def SourceConfig.withArgs (c : SourceConfig) (a : SourceConfigArgs) : SourceConfig where
  phasingCount := a.phasingCount.getD c.phasingCount
  skewLimit := a.skewLimit.getD c.skewLimit
  trackWindow := a.trackWindow.getD c.trackWindow
  missedLimit := a.missedLimit.getD c.missedLimit
  fadeLimit := a.fadeLimit.getD c.fadeLimit
  adHoc := (a.adHoc.map (fun n => n == 1)).getD c.adHoc

/-- A source with a new configuration, its counters cleared if asked (R46). -/
def Source.configured (x : Source) (a : SourceConfigArgs) : Source :=
  { x with
    config := x.config.withArgs a
    counters := if a.clearCounters then .zero else x.counters }

/-- SOURCE_CONFIG (R46). -/
def execSourceConfig (port : ClientId) (tag : Nat) (a : SourceConfigArgs) (s : State) :
    Host.Outcome State Fault Refusal :=
  .next (s.request port tag [.system] (fun s =>
    match indexOf 3 a.source with
    | none => s.answer port .badRequest []
    | some i =>
      if sourceArgsInRange a then (s.modifySource i (fun x => x.configured a)).answer port .ok []
      else s.answer port .badRequest []))

/-- The values given lie in the ranges of R70. -/
def storeArgsInRange (a : StoreConfigArgs) : Bool :=
  givenWithin 0 255 a.firmThreshold && givenWithin 0 63 a.replaceMargin && givenWithin 0 600 a.settleTime
    && givenWithin 0 1000 a.completePerMille && givenWithin 0 15 a.seamAcceptLimit

/-- The store configuration with the values given stored together (R70). -/
def StoreConfig.withArgs (c : StoreConfig) (a : StoreConfigArgs) : StoreConfig where
  firmThreshold := a.firmThreshold.getD c.firmThreshold
  replaceMargin := a.replaceMargin.getD c.replaceMargin
  settleTime := a.settleTime.getD c.settleTime
  completePerMille := a.completePerMille.getD c.completePerMille
  seamAcceptLimit := a.seamAcceptLimit.getD c.seamAcceptLimit

/-- STORE_CONFIG (R70). -/
def execStoreConfig (port : ClientId) (tag : Nat) (a : StoreConfigArgs) (s : State) :
    Host.Outcome State Fault Refusal :=
  .next (s.request port tag [.system] (fun s =>
    if storeArgsInRange a then
      { s with storeConfig := s.storeConfig.withArgs a }.answer port .ok []
    else s.answer port .badRequest []))

/-! ### Power-on (R175) -/

/-- RESET: every block in its power-on state, the straps sampled, the memory's content undefined anew (R114, R175,
R177; log 5). The commands that wait are not the part's. -/
def execReset (cfg0 cfg1 cfg2 : Byte) (s : State) : Host.Outcome State Fault Refusal :=
  .next { State.powerOn cfg0 cfg1 cfg2 with
    powerOns := s.powerOns + 1, freeDraws := s.freeDraws, pending := s.pending }

/-! ### STORE_CLEAR (R183) -/

/-- A source at STORE_CLEAR; a held START is kept and taken at the end (R48, R51). -/
def Source.cleared (x : Source) : Source :=
  { x.unbind with
    ring := [], head := .ready, hysteresis := false, positions := [], reference := 0, unphased := false
    misses := 0, rejections := 0
    state := if x.state = .linkDown then .linkDown else .idle }

/-- A cursor at STORE_CLEAR: its command answered NO_SUCH, its read discarded, the cursor CLOSED (R155). -/
def State.clearCursor (s : State) (c : CursorId) : State :=
  ((s.cutJob c .noSuch).abandonRead (.cursor c)).modifyCursor c (fun x => { x with slot := .closed })

/-- The controller's share for a slot (R124, R125, R126). -/
def State.clearSlotOps (s : State) (f : FrameId) : State := ((s.staleOps f).removeUnissued f).vanishReads f

/-- A frame record at STORE_CLEAR (R95). -/
def Frame.cleared (x : Frame) : Frame := if x.state = .free then x else .freeWith (next16 x.stamp)

/-- Every block's part of STORE_CLEAR (R48, R74, R95, R112, R126, R138, R155, R159, R174). -/
def State.clearStore (s : State) : State :=
  let s1 := allCursors.foldl (fun s c => s.clearCursor c) s
  let s2 := { s1 with sources := s1.sources.map Source.cleared }
  let s3 := allFrames.foldl (fun s f => s.clearSlotOps f) s2
  let s4 := { s3 with
    frames := s3.frames.map Frame.cleared, views := .replicate 4 none, pool := .replicate 512 none }.clearMosaics
  { s4 with
    reservations := s4.reservations.map (fun r => { r with valid := false })
    errors := []
    clients := s4.clients.map NoticeClient.emptied }

/-- STORE_CLEAR: the clear, its answer, then the held STARTs against the cleared table (R183, R48). -/
def execStoreClear (port : ClientId) (tag : Nat) (s : State) : Host.Outcome State Fault Refusal :=
  .next (s.request port tag [.system] (fun s => (s.clearStore.answer port .ok []).closeEvent))

/-! ### PORT_RESET (R184) -/

/-- A read still at the controller at PORT_RESET: removed while WAITING, discarded on its return otherwise (R126). -/
def State.dropRead (s : State) (c : CursorId) : State :=
  if s.readWaiting (.cursor c) then s.setHolder (.cursor c) none else s.abandonRead (.cursor c)

/-- A cursor of the port closes (R155). -/
def State.resetCursor (s : State) (c : CursorId) : State := (s.detachCursor c).dropRead c

/-- What a PORT_RESET does to client `n` (R184). -/
def State.resetClient (s : State) (n : ClientId) : State :=
  let s1 := (s.resetCursor (cursorOf n 0)).resetCursor (cursorOf n 1)
  let s2 := { s1 with frames := s1.frames.map (fun x : Frame => x.setPin n false) }.expireReservation n
  s2.setClient n (s2.client n).emptied

/-- PORT_RESET (R184). -/
def execPortReset (port : ClientId) (tag : Nat) (s : State) : Host.Outcome State Fault Refusal :=
  .next (s.request port tag [] (fun s => (s.resetClient port).answer port .ok []))

end Sys2Proof.Machine
end

