-- ==== Sys2Proof/Machine/Dispatch.lean ====
section
/-! DEFINITION. The meaning of every command: one arm for each constructor of `Instr`. -/

namespace Sys2Proof.Machine

def exec (i : Instr) (s : State) : Host.Outcome State Fault Refusal :=
  match i with
  | .reset cfg0 cfg1 cfg2 => Sys2Proof.Machine.execReset cfg0 cfg1 cfg2 s
  | .portStartupDone => Sys2Proof.Machine.execPortStartupDone s
  | .clockSecond => Sys2Proof.Machine.execClockSecond s
  | .start src frequency drum rate => Sys2Proof.Machine.execStart src frequency drum rate s
  | .phase src sequence pulse => Sys2Proof.Machine.execPhase src sequence pulse s
  | .image src sequence skew quality payload => Sys2Proof.Machine.execImage src sequence skew quality payload s
  | .stop src => Sys2Proof.Machine.execStop src s
  | .drop src => Sys2Proof.Machine.execDrop src s
  | .resume src => Sys2Proof.Machine.execResume src s
  | .idle src => Sys2Proof.Machine.execIdle src s
  | .failedCheckRecord src cause => Sys2Proof.Machine.execFailedCheckRecord src cause s
  | .linkSilenceExpiry src => Sys2Proof.Machine.execLinkSilenceExpiry src s
  | .linePeriodExpiry src => Sys2Proof.Machine.execLinePeriodExpiry src s
  | .fadeExpiry src => Sys2Proof.Machine.execFadeExpiry src s
  | .headTake => Sys2Proof.Machine.execHeadTake s
  | .settleExpiry frame => Sys2Proof.Machine.execSettleExpiry frame s
  | .arbiterGrant => Sys2Proof.Machine.execArbiterGrant s
  | .writeConfirmed issued => Sys2Proof.Machine.execWriteConfirmed issued s
  | .writeFailed issued => Sys2Proof.Machine.execWriteFailed issued s
  | .copyConfirmed issued => Sys2Proof.Machine.execCopyConfirmed issued s
  | .copyFailed issued => Sys2Proof.Machine.execCopyFailed issued s
  | .copyReadCorrupt issued => Sys2Proof.Machine.execCopyReadCorrupt issued s
  | .confirmationTimeout issued => Sys2Proof.Machine.execConfirmationTimeout issued s
  | .lateReport issued carriedOut => Sys2Proof.Machine.execLateReport issued carriedOut s
  | .readData holder returned => Sys2Proof.Machine.execReadData holder returned s
  | .readTimeout holder => Sys2Proof.Machine.execReadTimeout holder s
  | .seamJobTake => Sys2Proof.Machine.execSeamJobTake s
  | .requestWhileBusy port tag => Sys2Proof.Machine.execRequestWhileBusy port tag s
  | .requestRefused port tag refusal => Sys2Proof.Machine.execRequestRefused port tag refusal s
  | .responseRead port => Sys2Proof.Machine.execResponseRead port s
  | .getInfo port tag => Sys2Proof.Machine.execGetInfo port tag s
  | .setClock port tag second day weekday => Sys2Proof.Machine.execSetClock port tag second day weekday s
  | .getClock port tag => Sys2Proof.Machine.execGetClock port tag s
  | .sourceConfig port tag args => Sys2Proof.Machine.execSourceConfig port tag args s
  | .storeConfig port tag args => Sys2Proof.Machine.execStoreConfig port tag args s
  | .sourceStatus port tag source => Sys2Proof.Machine.execSourceStatus port tag source s
  | .frameList port tag => Sys2Proof.Machine.execFrameList port tag s
  | .frameInfo port tag slot => Sys2Proof.Machine.execFrameInfo port tag slot s
  | .scheduleRead port tag entry => Sys2Proof.Machine.execScheduleRead port tag entry s
  | .mosaicInfo port tag group => Sys2Proof.Machine.execMosaicInfo port tag group s
  | .prepare port tag entry dayGiven day => Sys2Proof.Machine.execPrepare port tag entry dayGiven day s
  | .reserve port tag kind number => Sys2Proof.Machine.execReserve port tag kind number s
  | .scheduleWrite port tag entry args => Sys2Proof.Machine.execScheduleWrite port tag entry args s
  | .scheduleSuspend port tag entry => Sys2Proof.Machine.execScheduleSuspend port tag entry s
  | .scheduleVacate port tag entry => Sys2Proof.Machine.execScheduleVacate port tag entry s
  | .frameAnnotate port tag slot mark title => Sys2Proof.Machine.execFrameAnnotate port tag slot mark title s
  | .frameRelease port tag slot => Sys2Proof.Machine.execFrameRelease port tag slot s
  | .mosaicDefine port tag group sections => Sys2Proof.Machine.execMosaicDefine port tag group sections s
  | .mosaicDissolve port tag group => Sys2Proof.Machine.execMosaicDissolve port tag group s
  | .pin port tag slot => Sys2Proof.Machine.execPin port tag slot s
  | .unpin port tag slot => Sys2Proof.Machine.execUnpin port tag slot s
  | .cursorOpen port tag args => Sys2Proof.Machine.execCursorOpen port tag args s
  | .cursorSet port tag args => Sys2Proof.Machine.execCursorSet port tag args s
  | .cursorClose port tag cursor => Sys2Proof.Machine.execCursorClose port tag cursor s
  | .readNext port tag cursor count => Sys2Proof.Machine.execReadNext port tag cursor count s
  | .readAt port tag cursor offset => Sys2Proof.Machine.execReadAt port tag cursor offset s
  | .readMap port tag kind number first count => Sys2Proof.Machine.execReadMap port tag kind number first count s
  | .scan port tag cursor condition parameter limit => Sys2Proof.Machine.execScan port tag cursor condition parameter limit s
  | .noticeSetLevels port tag pairs => Sys2Proof.Machine.execNoticeSetLevels port tag pairs s
  | .noticeSetThreshold port tag threshold => Sys2Proof.Machine.execNoticeSetThreshold port tag threshold s
  | .noticeSummary port tag level => Sys2Proof.Machine.execNoticeSummary port tag level s
  | .noticeAck port tag kind sort number countGiven count => Sys2Proof.Machine.execNoticeAck port tag kind sort number countGiven count s
  | .noticeRaise port tag target code => Sys2Proof.Machine.execNoticeRaise port tag target code s
  | .errorsPeek port tag count => Sys2Proof.Machine.execErrorsPeek port tag count s
  | .errorsTake port tag logNumber => Sys2Proof.Machine.execErrorsTake port tag logNumber s
  | .storeClear port tag => Sys2Proof.Machine.execStoreClear port tag s
  | .portReset port tag => Sys2Proof.Machine.execPortReset port tag s
  | .frameWrittenWhileStarting port => Sys2Proof.Machine.execFrameWrittenWhileStarting port s

end Sys2Proof.Machine
end

