-- ==== Sys2Proof/Safety.lean ====
section
/-! DEFINITION. What the statements about the part speak of: the frame a client command is, a port that accepts it, the
state that differs from another by an answer alone, the power-on values, and the invariants that every step keeps. -/

namespace Sys2Proof.Machine

/-! ### Client commands as frames on a port -/

/-- A client command's port, its tag, and the classes its port must hold (R157, R158, R176, R178). -/
structure ClientFrame where
  port    : ClientId
  tag     : Nat
  classes : List CommandClass
deriving DecidableEq, Repr

/-- The frame a client command is, or none for an event that is no client command (R178). -/
def clientFrame : Instr → Option ClientFrame
  | .getInfo p t => some { port := p, tag := t, classes := [] }
  | .setClock p t _ _ _ => some { port := p, tag := t, classes := [.system] }
  | .getClock p t => some { port := p, tag := t, classes := [.read] }
  | .sourceConfig p t _ => some { port := p, tag := t, classes := [.system] }
  | .storeConfig p t _ => some { port := p, tag := t, classes := [.system] }
  | .sourceStatus p t _ => some { port := p, tag := t, classes := [.read] }
  | .frameList p t => some { port := p, tag := t, classes := [.read] }
  | .frameInfo p t _ => some { port := p, tag := t, classes := [.read] }
  | .scheduleRead p t _ => some { port := p, tag := t, classes := [.read] }
  | .mosaicInfo p t _ => some { port := p, tag := t, classes := [.read] }
  | .prepare p t _ _ _ => some { port := p, tag := t, classes := [.frameEdit] }
  | .reserve p t kind _ => some { port := p, tag := t, classes := [reserveClass kind] }
  | .scheduleWrite p t _ _ => some { port := p, tag := t, classes := [.schedule] }
  | .scheduleSuspend p t _ => some { port := p, tag := t, classes := [.schedule] }
  | .scheduleVacate p t _ => some { port := p, tag := t, classes := [.schedule] }
  | .frameAnnotate p t _ _ _ => some { port := p, tag := t, classes := [.frameEdit] }
  | .frameRelease p t _ => some { port := p, tag := t, classes := [.frameEdit] }
  | .mosaicDefine p t _ _ => some { port := p, tag := t, classes := [.mosaic] }
  | .mosaicDissolve p t _ => some { port := p, tag := t, classes := [.mosaic] }
  | .pin p t _ => some { port := p, tag := t, classes := [.pin] }
  | .unpin p t _ => some { port := p, tag := t, classes := [.pin] }
  | .cursorOpen p t a => some { port := p, tag := t, classes := cursorClasses a.retain }
  | .cursorSet p t a => some { port := p, tag := t, classes := cursorClasses ((a.hints.map Prod.snd).getD false) }
  | .cursorClose p t _ => some { port := p, tag := t, classes := [.read] }
  | .readNext p t _ _ => some { port := p, tag := t, classes := [.read] }
  | .readAt p t _ _ => some { port := p, tag := t, classes := [.read] }
  | .readMap p t _ _ _ _ => some { port := p, tag := t, classes := [.read] }
  | .scan p t _ _ _ _ => some { port := p, tag := t, classes := [.read] }
  | .noticeSetLevels p t _ => some { port := p, tag := t, classes := [.notice] }
  | .noticeSetThreshold p t _ => some { port := p, tag := t, classes := [.notice] }
  | .noticeSummary p t _ => some { port := p, tag := t, classes := [.notice] }
  | .noticeAck p t _ _ _ _ _ => some { port := p, tag := t, classes := [.notice] }
  | .noticeRaise p t _ _ => some { port := p, tag := t, classes := [.relay] }
  | .errorsPeek p t _ => some { port := p, tag := t, classes := [.read] }
  | .errorsTake p t _ => some { port := p, tag := t, classes := [.read] }
  | .storeClear p t => some { port := p, tag := t, classes := [.system] }
  | .portReset p t => some { port := p, tag := t, classes := [] }
  | .reset _ _ _ => none
  | .portStartupDone => none
  | .clockSecond => none
  | .start _ _ _ _ => none
  | .phase _ _ _ => none
  | .image _ _ _ _ _ => none
  | .stop _ => none
  | .drop _ => none
  | .resume _ => none
  | .idle _ => none
  | .failedCheckRecord _ _ => none
  | .linkSilenceExpiry _ => none
  | .linePeriodExpiry _ => none
  | .fadeExpiry _ => none
  | .headTake => none
  | .settleExpiry _ => none
  | .arbiterGrant => none
  | .writeConfirmed _ => none
  | .writeFailed _ => none
  | .copyConfirmed _ => none
  | .copyFailed _ => none
  | .copyReadCorrupt _ => none
  | .confirmationTimeout _ => none
  | .lateReport _ _ => none
  | .readData _ _ => none
  | .readTimeout _ => none
  | .seamJobTake => none
  | .requestWhileBusy _ _ => none
  | .requestRefused _ _ _ => none
  | .responseRead _ => none
  | .frameWrittenWhileStarting _ => none

/-- The source whose link delivers a good record (R22). -/
def recordSource : Instr → Option SourceId
  | .start i _ _ _ => some i
  | .phase i _ _ => some i
  | .image i _ _ _ _ => some i
  | .stop i => some i
  | .drop i => some i
  | .resume i => some i
  | .idle i => some i
  | _ => none

/-- The target of a commit command, absent where its number is out of range; none for a command that is no commit
(R158). -/
def commitTarget : Instr → Option (Option Target)
  | .scheduleWrite _ _ e _ => some ((indexOf 64 e).map .entry)
  | .scheduleSuspend _ _ e => some ((indexOf 64 e).map .entry)
  | .scheduleVacate _ _ e => some ((indexOf 64 e).map .entry)
  | .frameAnnotate _ _ f _ _ => some ((indexOf 24 f).map .frame)
  | .frameRelease _ _ f => some ((indexOf 24 f).map .frame)
  | .mosaicDefine _ _ g _ => some ((indexOf 8 g).map .group)
  | .mosaicDissolve _ _ g => some ((indexOf 8 g).map .group)
  | _ => none

/-- The port takes a request (IDLE or DONE) and holds the classes (R175, R176). -/
abbrev State.accepts (s : State) (n : ClientId) (classes : List CommandClass) : Prop :=
  ((s.port n).state = .idle ∨ (s.port n).state = .done) ∧ (s.port n).holds classes = true

/-- The state in which nothing has changed but that a request of port `n` has been taken and answered (R175). -/
def State.withAnswer (s : State) (n : ClientId) (tag : Nat) (status : Status) (body : List Byte) : State :=
  (s.beginCommand n tag).answer n status body

/-! ### Commits (R158) -/

/-- The client's reservation stands for the target: valid, naming it, at its present stamp (R158). -/
abbrev State.reserves (s : State) (n : ClientId) (t : Target) : Prop :=
  s.reservation n = { target := some t, stamp := s.stampOf t, valid := true }

/-- The state with the client's reservation made invalid (R158). -/
def State.withoutReservation (s : State) (n : ClientId) : State :=
  s.setReservation n { s.reservation n with valid := false }

/-- The state in which a commit of port `n` has been taken, has changed nothing but the reservation, and has been
answered (R158). -/
def State.withCommit (s : State) (n : ClientId) (tag : Nat) (status : Status) (body : List Byte) : State :=
  (s.withoutReservation n).withAnswer n tag status body

/-! ### Bytes of a response (R180, R182) -/

/-- A field of `n` bytes that may hold no value. -/
def sentIn (n : Nat) (x : Option (List Byte)) : List Byte := x.getD (List.replicate n 255#8)

/-- A yes or a no. -/
def sentYes (b : Bool) : Byte := if b = true then 1#8 else 0#8

/-- A set, bit k standing for member k. -/
def sentSet (l : List Bool) : Nat := ((List.range l.length).map (fun k => if l.getD k false then 2 ^ k else 0)).sum

/-- The source block. -/
def Source.block (x : Source) : List Byte :=
  [byteOf x.state.code] ++ sentIn 2 (x.binding.map (fun b => [byteOf b.frame.val, byteOf b.pass]))
    ++ beBytes 2 x.reference ++ [sentYes x.unphased] ++ sentIn 2 (x.expectedSeq.map (beBytes 2))
    ++ [byteOf x.misses, byteOf x.ring.length, sentYes (x.hysteresis || x.held.isSome), sentYes x.held.isSome]
    ++ [byteOf x.config.phasingCount, byteOf x.config.skewLimit, byteOf x.config.trackWindow]
    ++ [byteOf x.config.missedLimit, byteOf x.config.fadeLimit, sentYes x.config.adHoc]
    ++ beBytes 2 x.counters.received ++ beBytes 2 x.counters.placed ++ beBytes 2 x.counters.mergedOut
    ++ beBytes 2 x.counters.rejected ++ beBytes 2 x.counters.overrun

/-- The schedule fields (R181). -/
def EntryFields.block (d : EntryFields) : List Byte :=
  [byteOf d.station] ++ beBytes 2 d.product ++ beBytes 2 d.startMinute
    ++ [byteOf d.tolerance, byteOf d.frequencies.length]
    ++ (List.range 4).flatMap (fun k => beBytes 3 (d.frequencies.getD k 0))
    ++ [byteOf (drumCode d.drum), byteOf (rateCode d.rate), byteOf (directionCode d.direction)] ++ beBytes 2 d.rows
    ++ [byteOf (sentSet ((List.finRange 7).map (fun k => d.days[k]))), byteOf ((d.repeatOf.map Fin.val).getD 255)]
    ++ [byteOf d.dayShift]

/-- The entry record. -/
def ScheduleEntry.block (x : ScheduleEntry) : List Byte :=
  [match x.definition with
    | none => 0#8
    | some (.active, _) => 1#8
    | some (.suspended, _) => 2#8]
    ++ sentIn 1 (x.writer.map (fun n => [byteOf n.val])) ++ beBytes 2 x.stamp
    ++ sentIn 27 (x.definition.map (fun d => d.2.block))

/-- The frame record of a slot. -/
def State.frameBlock (s : State) (f : FrameId) : List Byte :=
  let x := s.frame f
  [byteOf x.state.code] ++ sentIn 1 (x.entry.map (fun e => [byteOf e.val]))
    ++ sentIn 1 (x.root.map (fun e => [byteOf e.val])) ++ beBytes 2 x.day ++ [byteOf x.station] ++ beBytes 2 x.product
    ++ sentIn 5 (x.geometry.map (fun g =>
      [byteOf (drumCode g.drum), byteOf (rateCode g.rate), byteOf (directionCode g.direction)] ++ beBytes 2 g.rows))
    ++ [byteOf x.pass, byteOf (sentSet ((List.finRange 3).map (fun i => x.joined[i])))]
    ++ beBytes 2 x.coverage ++ beBytes 2 x.missed ++ beBytes 2 x.damaged
    ++ sentIn 5 (x.settledAt.map (fun p => beBytes 2 p.1 ++ beBytes 3 p.2))
    ++ [byteOf x.mark, byteOf x.title.length] ++ x.title ++ List.replicate (32 - x.title.length) 0#8
    ++ beBytes 2 (sentSet ((List.finRange 3).map (fun n => x.pins.explicit[n])
        ++ (List.finRange 6).map (fun c => x.pins.retain[c])))
    ++ sentIn 6 (x.view.bind (fun v => (s.view v).map (fun y =>
      [byteOf v.val, byteOf y.generation, sentYes y.torn] ++ beBytes 2 y.held ++ [byteOf y.cursors])))
    ++ sentIn 2 (x.mosaic.map (fun m => [byteOf m.1.val, byteOf m.2]))
    ++ beBytes 2 x.stamp ++ [byteOf (sentSet [x.enable, x.pendingMark]), sentYes x.memoryError]

/-- The item of a slot in FRAME_LIST. -/
def Frame.listBlock (x : Frame) : List Byte :=
  [byteOf x.state.code]
    ++ sentIn 6 (if x.state = .free then none
      else some (sentIn 1 (x.entry.map (fun e => [byteOf e.val])) ++ beBytes 2 x.day ++ [byteOf x.pass]
        ++ beBytes 2 x.coverage))
    ++ beBytes 2 x.stamp

/-- The ten bytes of a row entry; a line's five, or only the pass of a DAMAGED row's. -/
def RowEntry.block (e : RowEntry) : List Byte :=
  let line (l : LineInfo) : List Byte :=
    [byteOf l.source.val, byteOf l.pass, byteOf l.quality, BitVec.ofInt 8 l.rotation,
      byteOf (sentSet [l.flags.skewed, l.flags.unphased, l.flags.faded])]
  (match e.state with
    | .empty => [0#8, 255#8, 255#8, 255#8, 128#8, 255#8]
    | .missed => [1#8, 255#8, 255#8, 255#8, 128#8, 255#8]
    | .provisional l => 2#8 :: line l
    | .firm l => 3#8 :: line l
    | .damaged pass => [4#8, 255#8, byteOf pass, 255#8, 128#8, 255#8])
    ++ [match e.inFlight with | .no => 0#8 | .write _ => 1#8 | .copy => 1#8,
      match e.inFlight with | .write (some l) => byteOf l.quality | .write none => 255#8 | .copy => 255#8 | .no => 255#8,
      sentYes e.preserved.isSome, sentYes e.lost]

/-- The naming of a row. -/
def namingBlock (x : Option Naming) : List Byte :=
  sentIn 4 (x.map (fun n => [byteOf n.index, byteOf n.frame.val] ++ beBytes 2 n.row))

/-- A row item of a read response. -/
def RowItem.block (x : RowItem) : List Byte :=
  beBytes 2 x.row ++ [byteOf x.status.code] ++ x.report ++ namingBlock x.naming ++ beBytes 2 x.payload.length ++ x.payload

/-- The error record; its class is ABORT from kind 6 on (R128). -/
def ErrorRecord.block (r : ErrorRecord) : List Byte :=
  beBytes 2 r.number ++ [byteOf r.kind.code, sentYes (decide (6 ≤ r.kind.code)), byteOf r.origin.code.1, byteOf r.origin.code.2]
    ++ sentIn 1 (r.frame.map (fun f => [byteOf f.val])) ++ sentIn 2 (r.row.map (beBytes 2))
    ++ sentIn 1 (r.pass.map (fun n => [byteOf n])) ++ [byteOf r.detail] ++ beBytes 3 r.time
    ++ [byteOf r.repeats, byteOf r.lost, sentYes r.marking]

/-- A notice's kind code (R167), and the four bytes of its detail. -/
def NoticeDetail.block : NoticeDetail → Nat × List Byte
  | .frameBound i k => (1, [byteOf i.val,
      match k with | .join => 0#8 | .rejoin => 1#8 | .newPass => 2#8 | .expected => 3#8 | .fresh => 4#8, 0#8, 0#8])
  | .passSettled p complete => (2, [byteOf p, if complete then 0#8 else 1#8, 0#8, 0#8])
  | .frameEvicted i => (3, [byteOf i.val, 0#8, 0#8, 0#8])
  | .expectedLapsed e => (4, [byteOf ((e.map Fin.val).getD 255), 0#8, 0#8, 0#8])
  | .frameFaulted p code => (5, [byteOf p, byteOf code, 0#8, 0#8])
  | .gap f q => (6, [byteOf f.val] ++ beBytes 2 q ++ [0#8])
  | .fade f misses => (7, [byteOf ((f.map Fin.val).getD 255), sentYes misses, 0#8, 0#8])
  | .sourceEnd f p k => (8, [byteOf f.val, byteOf p, match k with | .normal => 0#8 | .lost => 1#8 | .overrun => 2#8, 0#8])
  | .unscheduled clockUnset => (9, [if clockUnset then 0#8 else 1#8, 0#8, 0#8, 0#8])
  | .viewTorn v r => (10, [byteOf v.val] ++ beBytes 2 r ++ [0#8])
  | .mosaicJoined height weak => (11, beBytes 2 height ++ [byteOf weak, 0#8])
  | .mosaicStale k cause => (12, [byteOf k,
      match cause with | .newPass => 0#8 | .newFrame => 1#8 | .free => 2#8 | .faulted => 3#8, 0#8, 0#8])
  | .cursorLostFrame c f cause => (13, [byteOf c.val, 1#8, byteOf f.val,
      match cause with | .free => 0#8 | .faulted => 1#8 | .viewReleased => 2#8 | .dissolved => 3#8])
  | .cursorLostGroup c g cause => (13, [byteOf c.val, 2#8, byteOf g.val,
      match cause with | .free => 0#8 | .faulted => 1#8 | .viewReleased => 2#8 | .dissolved => 3#8])
  | .errorLogged k filing => (14, [byteOf k.code,
      match filing with | .appended => 0#8 | .folded => 1#8 | .dropped => 2#8, 0#8, 0#8])
  | .scheduleChanged e op => (15, [byteOf e.val,
      match op with | .write => 0#8 | .suspend => 1#8 | .vacate => 2#8, 0#8, 0#8])
  | .relay code => (16, [byteOf code, 0#8, 0#8, 0#8])

/-- The notice pair. -/
def NoticePair.block (p : NoticePair) : List Byte :=
  [byteOf p.detail.block.1, byteOf p.origin.code.1, byteOf p.origin.code.2] ++ p.detail.block.2 ++ [byteOf p.count]

/-! ### Ranges -/

/-- A value not given, or given from `low` to `high`. -/
abbrev optionWithin (low high : Nat) (x : Option Nat) : Prop := ∀ n ∈ x, low ≤ n ∧ n ≤ high

/-- The values of a SOURCE_CONFIG lie in the ranges of R46; ad hoc capture is 0 or 1 (R180, log 7). -/
abbrev sourceArgsAllowed (a : SourceConfigArgs) : Prop :=
  optionWithin 4 31 a.phasingCount ∧ optionWithin 0 127 a.skewLimit ∧ optionWithin 0 8 a.trackWindow
    ∧ optionWithin 1 255 a.missedLimit ∧ optionWithin 1 120 a.fadeLimit ∧ optionWithin 0 1 a.adHoc

/-- The values of a STORE_CONFIG lie in the ranges of R70. -/
abbrev storeArgsAllowed (a : StoreConfigArgs) : Prop :=
  optionWithin 0 255 a.firmThreshold ∧ optionWithin 0 63 a.replaceMargin ∧ optionWithin 0 600 a.settleTime
    ∧ optionWithin 0 1000 a.completePerMille ∧ optionWithin 0 15 a.seamAcceptLimit

/-- The fields of a SCHEDULE_WRITE lie in the ranges of R3, in the codes of R180 (R160, first case). -/
abbrev entryArgsAllowed (a : EntryArgs) : Prop :=
  (a.state = 1 ∨ a.state = 2) ∧ a.station ≤ 255 ∧ 1 ≤ a.product ∧ a.product ≤ 4095 ∧ a.startMinute ≤ 1439
    ∧ a.tolerance ≤ 15 ∧ 1 ≤ a.frequencyCount ∧ a.frequencyCount ≤ 4
    ∧ (∀ f ∈ a.frequencies.take a.frequencyCount, 20000 ≤ f ∧ f ≤ 300000)
    ∧ a.drum ≤ 2 ∧ a.rate ≤ 2 ∧ a.direction ≤ 1 ∧ 1 ≤ a.rows ∧ a.rows ≤ 2048
    ∧ (a.repeatOf ≤ 63 ∨ a.repeatOf = 255) ∧ a.dayShift ≤ 1

/-- The fields are those a SCHEDULE_WRITE carries (R160, R180). -/
abbrev entryArgsCarry (a : EntryArgs) (mode : EntryMode) (d : EntryFields) : Prop :=
  a.state = (match mode with | .active => 1 | .suspended => 2)
    ∧ d.station = a.station ∧ d.product = a.product ∧ d.startMinute = a.startMinute ∧ d.tolerance = a.tolerance
    ∧ d.frequencies = a.frequencies.take a.frequencyCount ∧ drumCode d.drum = a.drum ∧ rateCode d.rate = a.rate
    ∧ directionCode d.direction = a.direction ∧ d.rows = a.rows ∧ (∀ k : Fin 7, d.days[k] = a.days[k.val])
    ∧ (match d.repeatOf with | none => 255 | some e => e.val) = a.repeatOf ∧ d.dayShift = a.dayShift

/-- The minimum rows of section `k` of a list of entries and overlaps (R98). -/
def minimumOf (l : List (Nat × Nat)) (k : Nat) : Nat :=
  if l.length = 1 then 1
  else 24 + (if k = 0 then 0 else (l.getD k (0, 0)).2) + (l.getD (k + 1) (0, 0)).2

/-- A list of entries and overlaps that a group of drum class `drum` can be built of (R98). -/
def State.definable (s : State) (drum : DrumClass) (l : List (Nat × Nat)) : Prop :=
  1 ≤ l.length ∧ l.length ≤ 6
    ∧ (∀ k p, l[k]? = some p → ∃ e m d, e.val = p.1 ∧ (s.entryAt e).definition = some (m, d) ∧ d.drum = drum
        ∧ minimumOf l k ≤ d.rows ∧ (0 < k → 8 ≤ p.2 ∧ p.2 ≤ 64))
    ∧ (∀ j k : Nat, ∀ d e : EntryId, j < k → l[j]?.map Prod.fst = some d.val → l[k]?.map Prod.fst = some e.val →
        (s.repeatOf d).getD d ≠ (s.repeatOf e).getD e)

/-! ### A line's sequence (R33) -/

/-- The expected next sequence after a line (R33): counted forward from the one expected, a line less than 2,048 ahead moves it
past itself, and a late one leaves it. -/
def Source.expectedAfter (x : Source) (sequence : Nat) : Option Nat :=
  match x.firstSeq, x.expectedSeq with
  | some _, some e => if ((sequence : Int) - e) % 4096 < 2048 then some ((sequence + 1) % 4096) else some e
  | _, _ => some ((sequence + 1) % 4096)

/-! ### Lapses (R20) -/

/-- The window of the frame has passed: its entry is VACANT, or its window end lies from 1 minute to 32,767 days back, counted
in the minutes of the 65,536 days of the clock (R20). -/
def State.windowOver (s : State) (f : FrameId) : Prop :=
  ∃ e, (s.frame f).entry = some e
    ∧ ((s.entryAt e).definition = none
      ∨ ∃ m d k, (s.entryAt e).definition = some (m, d) ∧ 1 ≤ k ∧ k ≤ 32767 * 1440
        ∧ ((((s.frame f).day + (if d.repeatOf.isSome then d.dayShift else 0)) % 65536) * 1440
            + d.startMinute + d.tolerance + k) % (65536 * 1440)
          = (s.clock.day * 1440 + s.clock.second / 60) % (65536 * 1440))

/-- The minute check lapses the frame: EXPECTED, unpinned, and its window passed (R20). -/
def State.lapses (s : State) (f : FrameId) : Prop :=
  (s.frame f).state = .expected ∧ (s.frame f).pins.isEmpty = true ∧ s.windowOver f

/-! ### Pixels (section 2.1) -/

/-- The grey level of column `c` of a payload: an even column lies in the upper four bits of byte `c / 2`, an odd one in
the lower four. -/
def pixelAt (p : List Byte) (c : Nat) : Nat :=
  let b := (p.getD (c / 2) 0#8).toNat
  if c % 2 = 0 then b / 16 else b % 16

/-- The sum of the differences of grey level of two rows, column by column (R108). -/
def greyDistance (a b : List Byte) : Nat :=
  ((List.range (2 * min a.length b.length)).map (fun c => ((pixelAt a c : Int) - pixelAt b c).natAbs)).sum

/-! ### Broadcast keys (R7, R13) -/

/-- The frame holds the key of a START that has chosen entry `e` with the fields `d`, taken today (R7). -/
abbrev State.holdsKey (s : State) (f : FrameId) (e : EntryId) (d : EntryFields) : Prop :=
  (s.frame f).state ≠ .free ∧ (s.frame f).root = some (d.repeatOf.getD e)
    ∧ (s.frame f).day = (s.clock.day + 65536 - if d.repeatOf.isSome then d.dayShift else 0) % 65536

/-- The frame cannot take a START through entry `e` though it holds its key (R13): RECEIVING through another entry with
another geometry; settled, or SETTLING through another entry, with another geometry or at pass 15; or FAULTED. -/
abbrev State.cannotTake (s : State) (f : FrameId) (e : EntryId) (d : EntryFields) : Prop :=
  let x := s.frame f
  let other : Prop := x.geometry ≠ some { drum := d.drum, rate := d.rate, direction := d.direction, rows := d.rows }
  x.state = .receiving ∧ x.entry ≠ some e ∧ other
    ∨ (x.state = .settling ∧ x.entry ≠ some e ∨ x.state = .complete ∨ x.state = .partialOnly) ∧ (other ∨ 15 ≤ x.pass)
    ∨ x.state = .faulted

/-! ### Mosaic sections and the composite (R97, R100, R104) -/

/-- A section matches a frame bound through entry `e` (R100). -/
abbrev State.sectionMatches (s : State) (e : EntryId) (x : MosaicSection) : Prop :=
  x.entry = e ∨ (∀ g, ∀ y ∈ (s.group g).sections, y.entry ≠ e) ∧ s.repeatOf e = some x.entry

/-- A frame of the geometry fits section `k` of the group (R100): the drum class is the group's and the rows are at least
the minimum rows of R98. -/
abbrev State.sectionFits (s : State) (g : GroupId) (k : Nat) (y : Geometry) : Prop :=
  let overlap (j : Nat) : Nat := ((s.seam g j).map Seam.overlap).getD 0
  (s.group g).drum = some y.drum
    ∧ (if (s.group g).sections.length = 1 then 1 else 24 + overlap k + overlap (k + 1)) ≤ y.rows

/-- A section has a bound frame that is COMPLETE or PARTIAL (R102). -/
abbrev State.settledIn (s : State) (x : MosaicSection) : Prop :=
  ∃ f, x.frame = some f ∧ ((s.frame f).state = .complete ∨ (s.frame f).state = .partialOnly)

/-- The rows of a section: its bound frame's while it has one, its nominal rows otherwise (R97). -/
def State.rowsOf (s : State) (x : MosaicSection) : Nat :=
  match x.frame.bind (fun f => (s.frame f).geometry) with
  | none => x.nominal
  | some g => g.rows

/-- How far a section's top lies below the end of the section above it (R104); section 0 has no seam. -/
def MosaicSection.offset (x : MosaicSection) : Int :=
  match x.seam with
  | none => 0
  | some m => m.adjustment - m.overlap

/-- The top of section `k` (R104): the rows of the sections above it, and the offsets down to its own. -/
def State.topOf (s : State) (l : List MosaicSection) (k : Nat) : Int :=
  ((l.take k).map (fun x => (s.rowsOf x : Int))).sum + ((l.take (k + 1)).map MosaicSection.offset).sum

/-- The composite height of sections (R104). -/
def State.heightOf (s : State) (l : List MosaicSection) : Int :=
  (l.map (fun x => (s.rowsOf x : Int))).sum + (l.map MosaicSection.offset).sum

/-- The group record (R182). -/
def State.groupBlock (s : State) (g : GroupId) : List Byte :=
  let x := s.group g
  [byteOf x.state.code] ++ sentIn 1 (x.drum.map (fun d => [byteOf (drumCode d)])) ++ beBytes 2 x.height
    ++ beBytes 2 x.stamp ++ [byteOf x.sections.length]
    ++ (List.range x.sections.length).flatMap (fun k => (x.sections[k]?).elim [] (fun y =>
      [byteOf y.entry.val] ++ beBytes 2 y.nominal
        ++ sentIn 2 (y.frame.map (fun f => [byteOf f.val, byteOf (s.frame f).state.code]))
        ++ beBytes 2 (s.topOf x.sections k).toNat
        ++ (y.seam.map (fun m => [byteOf m.overlap, BitVec.ofInt 8 m.adjustment, byteOf m.state.code]
            ++ sentIn 1 (m.score.map (fun n => [byteOf n])))).getD [255#8, 128#8, 255#8, 255#8]))

/-- A frame that section `k` of a definition `l` of group `g` may pick up (R98): it is RECEIVING, SETTLING, COMPLETE or
PARTIAL with no membership, the section matches its entry (R100), and it fits. -/
def State.fitsDefinition (s : State) (g : GroupId) (drum : DrumClass) (l : List (Nat × Nat)) (k : Nat) (f : FrameId) : Prop :=
  let x := s.frame f
  (x.state = .receiving ∨ x.state = .settling ∨ x.state = .complete ∨ x.state = .partialOnly) ∧ x.mosaic = none
    ∧ (∃ y, x.geometry = some y ∧ y.drum = drum ∧ minimumOf l k ≤ y.rows)
    ∧ ∃ e p, x.entry = some e ∧ l[k]? = some p
      ∧ (p.1 = e.val
        ∨ (∀ h, h ≠ g → ∀ z ∈ (s.group h).sections, z.entry ≠ e) ∧ (∀ q ∈ l, q.1 ≠ e.val)
          ∧ (s.repeatOf e).map Fin.val = some p.1)

/-- Of the frames that section `k` may pick up, the one it takes (R98): a RECEIVING or SETTLING one, the lowest slot first;
failing that the latest settled, ties to the lowest slot. -/
def State.pickedUp (s : State) (g : GroupId) (drum : DrumClass) (l : List (Nat × Nat)) (k : Nat) (f : FrameId) : Prop :=
  let fits := s.fitsDefinition g drum l k
  let running (h : FrameId) : Prop := (s.frame h).state = .receiving ∨ (s.frame h).state = .settling
  let time (h : FrameId) : Nat := ((s.frame h).settledAt.map (fun p => p.1 * 86400 + p.2)).getD 0
  fits f
    ∧ (running f ∧ (∀ h, fits h → running h → f ≤ h)
      ∨ (∀ h, fits h → ¬ running h) ∧ ∀ h, fits h → time h < time f ∨ time h = time f ∧ f ≤ h)

/-- Section `k` of the group covers composite row `c` (R105). -/
abbrev State.covers (s : State) (g : GroupId) (k c : Nat) : Prop :=
  ∃ x, (s.group g).sections[k]? = some x ∧ s.topOf (s.group g).sections k ≤ c
    ∧ (c : Int) < s.topOf (s.group g).sections k + s.rowsOf x

/-- The row of section `k` at composite row `c` (R105). -/
def State.sectionRow (s : State) (g : GroupId) (k c : Nat) : Nat := ((c : Int) - s.topOf (s.group g).sections k).toNat

/-- The entry of section `k` at composite row `c`, where the section has a bound frame. -/
def State.sectionEntry (s : State) (g : GroupId) (k c : Nat) : Option RowEntry :=
  (s.sectionFrame g k).bind (fun f => s.rowEntry f (s.sectionRow g k c))

/-- The place of an entry in the order FIRM, PROVISIONAL, DAMAGED, MISSED, EMPTY, the better the higher; a row of a
section with no bound frame counts as EMPTY (R105). -/
def gradeOf (e : Option RowEntry) : Nat :=
  match e.map RowEntry.state with
  | some (.firm _) => 4
  | some (.provisional _) => 3
  | some (.damaged _) => 2
  | some .missed => 1
  | some .empty => 0
  | none => 0

/-- What a change of section `k` does to its group where a section has no settled frame after it (R103): the group is
GATHERING, its stamp one further where it was not before; the touching seams have no result and no job, their search is
abandoned, and the others keep theirs, a WAITING one joining the queue where it gained room; the height is that of the
sections; a JOINED group raises MOSAIC_STALE. -/
def State.regathers (s t : State) (g : GroupId) (k : Nat) (cause : StaleCause) : Prop :=
  (t.group g).state = .gathering ∧ (t.group g).drum = (s.group g).drum
    ∧ (t.group g).stamp = (if (s.group g).state = .gathering then (s.group g).stamp else next16 (s.group g).stamp)
    ∧ (t.group g).height = (t.heightOf (t.group g).sections).toNat
    ∧ (∀ j m, s.seam g j = some m → j = k ∨ j = k + 1 →
        t.seam g j = some { m with adjustment := 0, state := .none, score := none } ∧ (g, j) ∉ t.seamQueue
          ∧ (m.state = .searching → t.engine = none))
    ∧ (∀ j m, s.seam g j = some m → j ≠ k → j ≠ k + 1 →
        t.seam g j = some m ∨ m.state = .waiting ∧ t.seam g j = some { m with state := .queued })
    ∧ ((s.group g).state = .joined → ∀ n, (s.client n).levels[(11 : Fin 16)] ≠ 0 →
        ∃ p ∈ (t.client n).pendingSet, p.origin = .group g ∧ p.detail = .mosaicStale k cause)

/-- From `s` to `t` section `j` of the group has taken frame `f` by a binding (R100): it is the section's bound frame, another
section that it was in has none, the frame it replaces has no membership, and the group's RETAIN cursors have moved from that
to this (R153). Where `f` was in no section of the group, the section is changed once (R103). -/
def State.sectionTook (s t : State) (f : FrameId) (g : GroupId) (j : Nat) : Prop :=
  let retained (c : CursorId) : Prop := ∃ k, (s.cursor c).slot = .opened k ∧ k.attachment = .group g ∧ k.retain = true
  t.sectionFrame g j = some f ∧ (t.frame f).mosaic = some (g, j)
    ∧ (∀ h k, (s.frame f).mosaic = some (h, k) → (h, k) ≠ (g, j) → t.sectionFrame h k = none)
    ∧ (∀ c, retained c → (t.frame f).pins.retain[c] = true)
    ∧ (∀ q, q ≠ f → s.sectionFrame g j = some q →
        (t.frame q).mosaic = none ∧ ∀ c, retained c → (t.frame q).pins.retain[c] = false)
    ∧ ((∀ k, (s.frame f).mosaic ≠ some (g, k)) → s.regathers t g j .newFrame)

/-! ### The FOLLOW test (R147) -/

/-- READ_NEXT stops at a row so shown: FOLLOW is set on a CURRENT or mosaic attachment, and the frame that the row is of is
RECEIVING or SETTLING and its entry EMPTY or in flight. -/
def State.stopsFollow (s : State) (k : CursorFields) (v : RowView) : Prop :=
  k.follow = true ∧ (∀ f, k.attachment ≠ .previous f)
    ∧ ∃ f row e, v.place = some (f, row) ∧ v.showing = .standing e
      ∧ ((s.frame f).state = .receiving ∨ (s.frame f).state = .settling) ∧ (e.state = .empty ∨ e.inFlight ≠ .no)

/-! ### The windows of a seam search (R107) -/

/-- The rows of the two windows of a search: the last overlap + 12 rows of the upper frame that it has, and the first
overlap rows of the lower. -/
def Search.windowLength (x : Search) : Nat := min x.upperRows (x.overlap + 12) + x.overlap

/-- The frame and row that the engine takes `k`-th. -/
def Search.windowRow (x : Search) (k : Nat) : FrameId × Nat :=
  let first := min x.upperRows (x.overlap + 12)
  if k < first then (x.upperFrame, x.upperRows - first + k) else (x.lowerFrame, k - first)

/-- The row is PROVISIONAL or FIRM as it stands, so that the engine reads it. -/
abbrev State.searchable (s : State) (p : FrameId × Nat) : Prop :=
  ∃ e l, s.rowEntry p.1 p.2 = some e ∧ (e.state = .provisional l ∨ e.state = .firm l)

/-- What the end of a search of group `g` leaves (R102, R104, R109): the engine idle, the height that of the sections, and a
JOINING group whose seams all have a result JOINED, with MOSAIC_JOINED; any other as it was. -/
def State.searchEnds (s t : State) (g : GroupId) : Prop :=
  let before := s.group g
  let joined := before.state = .joining ∧ ∀ k z, t.seam g k = some z → z.state = .found ∨ z.state = .weak
  t.engine = none ∧ t.holder .seam = none ∧ (t.group g).height = (t.heightOf (t.group g).sections).toNat
    ∧ (joined → (t.group g).state = .joined ∧ (t.group g).stamp = next16 before.stamp
        ∧ ∀ c, (s.client c).levels[(10 : Fin 16)] ≠ 0 → ∃ p ∈ (t.client c).pendingSet, p.origin = .group g
            ∧ p.detail = .mosaicJoined (t.group g).height ((t.group g).sections.countP
              (fun z => z.seam.any (fun q => decide (q.state = .weak)))))
    ∧ (¬ joined → (t.group g).state = before.state ∧ (t.group g).stamp = before.stamp ∧ t.clients = s.clients)

/-! ### Memory errors at the queue (R129, R132) -/

/-- From `s` to `t` FC has filed a memory error for a row of frame `f`, which no earlier one has marked: it folds into the
newest record of its kind, origin and frame, is appended, or, the queue full, is dropped and counted on the newest (R129).
Folded or appended, it marks a frame that is RECEIVING, SETTLING, COMPLETE or PARTIAL, and the record is marking; dropped, or
for a frame in another state, it leaves the mark as it is (R132). ERROR_LOGGED tells how it was filed (R131). -/
def State.filesMemoryError (s t : State) (kind : ErrorKind) (f : FrameId) (row pass detail : Nat) : Prop :=
  let x := s.frame f
  let marks := decide (x.state = .receiving ∨ x.state = .settling ∨ x.state = .complete ∨ x.state = .partialOnly)
  let made : ErrorRecord :=
    { number := s.logCounter, kind := kind, origin := .memory, frame := some f, row := some row, pass := some pass
      detail := detail, time := if s.clock.isSet then s.clock.second else 0, repeats := 0, lost := 0, marking := marks }
  let filed (errors : List ErrorRecord) (counter : Nat) (mark : Bool) (g : Filing) : Prop :=
    t.errors = errors ∧ t.logCounter = counter ∧ (t.frame f).memoryError = mark
      ∧ ∀ n, (s.client n).levels[(13 : Fin 16)] ≠ 0 →
          ∃ p ∈ (t.client n).pendingSet, p.origin = .memory ∧ p.detail = .errorLogged kind g
  (s.errors = [] → filed [made] ((s.logCounter + 1) % 65536) (marks || x.memoryError) .appended)
    ∧ ∀ before r, s.errors = before ++ [r] →
      let same := r.kind = kind ∧ r.origin = .memory ∧ r.frame = some f
      (same → filed
          (before ++ [{ r with repeats := if r.repeats < 255 then r.repeats + 1 else 255, marking := r.marking || marks }])
          s.logCounter (marks || x.memoryError) .folded)
        ∧ (¬ same → s.errors.length < 8 →
          filed (s.errors ++ [made]) ((s.logCounter + 1) % 65536) (marks || x.memoryError) .appended)
        ∧ (¬ same → 8 ≤ s.errors.length →
          filed (before ++ [{ r with lost := if r.lost < 255 then r.lost + 1 else 255 }]) s.logCounter x.memoryError
            .dropped)

/-- Command `c` ends a write, a copy or a read of a row of frame `f`, whose entry is `e`, in a memory error of that kind, pass
and detail (R128), which leaves the row in state `left`: a write that is not stale refused or not confirmed in time (R61), such
a copy, or its read half with a wrong check word (R65), a read of the slot row (R62) or of its pool row while the view stands
(R122), with a wrong check word or no data in time (R123). -/
def State.memoryFails (s : State) (c : Instr) (f : FrameId) (row : Nat) (e : RowEntry) (left : RowState) (kind : ErrorKind)
    (pass detail : Nat) : Prop :=
  let held := e.state.passOf.getD (s.frame f).pass
  (∃ n o, s.issuedOp n = some o ∧ o.slot = f ∧ o.row = row ∧ o.stale = false
    ∧ ((∃ payload, o.kind = .rowWrite payload) ∧ left = .damaged o.pass ∧ pass = o.pass ∧ detail = 1
          ∧ (c = .writeFailed n ∧ s.answerFloor ≤ n ∧ kind = .writeFailed
            ∨ c = .confirmationTimeout n ∧ kind = .writeTimeout)
      ∨ (∃ p l, o.kind = .rowCopy p l)
        ∧ (left = e.state ∧ pass = o.pass ∧ detail = 2
            ∧ (c = .copyFailed n ∧ s.answerFloor ≤ n ∧ kind = .writeFailed
              ∨ c = .confirmationTimeout n ∧ kind = .writeTimeout)
          ∨ left = .damaged held ∧ pass = held ∧ detail = 3
            ∧ c = .copyReadCorrupt n ∧ s.answerFloor ≤ n ∧ kind = .readCorrupt)))
  ∨ ∃ (h : ReadHolder) (m : Nat) (r : ReadRequest) (noAnswer : Bool), s.holder h = some r ∧ r.issued = some m
      ∧ r.slot = f ∧ r.row = row ∧ r.fate ≠ .vanished ∧ kind = .readCorrupt
      ∧ (noAnswer = false ∧ s.answerFloor ≤ m ∧ (∃ bytes, c = .readData h (some bytes) ∧ r.checks bytes = false)
        ∨ noAnswer = true ∧ c = .readTimeout h)
      ∧ (r.pool = none ∧ left = .damaged held ∧ pass = held
          ∧ detail = (match h with | .cursor _ => 1 | .seam => 2) + (if noAnswer then 4 else 0)
        ∨ ∃ p, r.pool = some p ∧ r.viewGone = false ∧ left = e.state
          ∧ pass = (s.memoryByte (poolBase p + drumBytes r.drum + 4)).toNat ∧ detail = if noAnswer then 7 else 4)

/-! ### Passes of entries (R49) -/

/-- The entry's state carries the pass. -/
abbrev RowState.carriesPass (r : RowState) (p : Nat) : Prop :=
  (∃ l, (r = .provisional l ∨ r = .firm l) ∧ l.pass = p) ∨ r = .damaged p

/-! ### The head PE takes (R52) -/

/-- The source is the first in cyclic order from the pointer whose head is ready. -/
def State.headDue (s : State) (i : SourceId) : Prop :=
  ∃ k : Nat, k < 3 ∧ i.val = (s.pointer.val + k) % 3 ∧ (s.source i).headReady = true
    ∧ ∀ j : SourceId, ∀ m < k, j.val = (s.pointer.val + m) % 3 → (s.source j).headReady = false

/-! ### Power-on (R175 and each chapter's power-on values) -/

/-- The values the spec gives the part at power-on, with the levels of the strap groups. -/
def State.isPoweredOn (s : State) (straps : ClientId → Byte) : Prop :=
  s.clock = { isSet := false, second := 0, day := 0, weekday := .monday }
    ∧ (∀ e, s.entryAt e = { definition := none, writer := none, stamp := 0 })
    ∧ (∀ i, (s.source i).state = .idle ∧ (s.source i).binding = none ∧ (s.source i).firstSeq = none
        ∧ (s.source i).expectedSeq = none ∧ (s.source i).reference = 0 ∧ (s.source i).unphased = false
        ∧ (s.source i).positions = [] ∧ (s.source i).misses = 0 ∧ (s.source i).rejections = 0
        ∧ (s.source i).checkFailures = 0 ∧ (s.source i).recovery = 0 ∧ (s.source i).held = none
        ∧ (s.source i).ring = [] ∧ (s.source i).holdLine = false ∧ (s.source i).linePeriodTimer = none
        ∧ (s.source i).fadeTimer = none ∧ (s.source i).silenceTimer = some 2000
        ∧ (s.source i).counters = { received := 0, placed := 0, mergedOut := 0, rejected := 0, overrun := 0, phases := 0 }
        ∧ (s.source i).config = { phasingCount := 20, skewLimit := 48, trackWindow := 2, missedLimit := 40,
                                  fadeLimit := 30, adHoc := false }
        ∧ (s.source i).head = .ready)
    ∧ s.pointer = 0
    ∧ s.storeConfig = { firmThreshold := 200, replaceMargin := 16, settleTime := 60, completePerMille := 980,
                        seamAcceptLimit := 3 }
    ∧ (∀ f, s.frame f = .freeWith 0)
    ∧ (∀ v, s.view v = none) ∧ (∀ p, s.poolRow p = none)
    ∧ (∀ g, s.group g = .undefinedWith 0)
    ∧ s.seamQueue = [] ∧ s.engine = none ∧ s.writeQueue = [] ∧ (∀ h, s.holder h = none) ∧ s.readPointer = 0
    ∧ s.errors = [] ∧ s.logCounter = 0
    ∧ (∀ c, (s.cursor c).slot = .closed ∧ (s.cursor c).job = none)
    ∧ (∀ n, (s.reservation n).valid = false ∧ (s.reservation n).target = none)
    ∧ (∀ n, s.client n = { levels := .replicate 16 0, threshold := 0, pendingSet := [], line := false })
    ∧ (∀ n, (s.port n).state = .starting ∧ (s.port n).buffer = none ∧ (s.port n).readyLine = false
        ∧ (s.port n).busyTag = none ∧ (s.port n).mask = straps n)

/-! ### Invariants -/

/-- Picture memory is in its canonical form. -/
abbrev State.memoryOk (s : State) : Prop := Memory.wf s.memory = true

/-- A pending set in the order of R171, by kind and within a kind by origin, with one pair for each kind and origin
(R169). -/
abbrev NoticeClient.inOrder (x : NoticeClient) : Prop :=
  x.pendingSet.Pairwise (fun p q =>
    p.detail.kindIndex < q.detail.kindIndex
      ∨ p.detail.kindIndex = q.detail.kindIndex ∧ p.origin.rank < q.origin.rank)

/-- The NOTICE line of each port is what R170 says of the client's pending set and threshold, and the set is in order. -/
abbrev State.noticesOk (s : State) : Prop := ∀ n, (s.client n).line = (s.client n).noticeDue ∧ (s.client n).inOrder

/-- The posted write queue, the error queue and the seam job queue hold at most 8 each (R116, R127, R106). -/
abbrev State.queuesOk (s : State) : Prop :=
  s.writeQueue.length ≤ 8 ∧ s.errors.length ≤ 8 ∧ s.seamQueue.length ≤ 8

/-- A source's ring (R29): at most 16 records; a STOP marker only as the newest; at most 15 records, all lines, while
the stream is in progress, which is then bound; nothing while the source is not bound, which it is not in
DISCARDING (R42). -/
abbrev Source.ringOk (x : Source) : Prop :=
  x.ring.length ≤ 16
    ∧ (∀ r ∈ x.ring.dropLast, r.isMarker = false)
    ∧ (x.state.inStream = true → x.binding.isSome = true ∧ x.ring.length ≤ 15 ∧ ∀ r ∈ x.ring, r.isMarker = false)
    ∧ (x.binding = none → x.ring = [])
    ∧ (x.state = .discarding → x.binding = none)

abbrev State.ringsOk (s : State) : Prop := ∀ i, (s.source i).ringOk

/-- The pass a frame's state allows (R76). -/
def Frame.passOk (x : Frame) : Prop :=
  match x.state with
  | .free => x.pass = 0
  | .expected => x.pass = 0
  | _ => 1 ≤ x.pass ∧ x.pass ≤ 15

/-- A frame record (R69, R76): a source is joined exactly while it is RECEIVING; its pass lies in its state's range; and
its counts are those of its row map. -/
abbrev Frame.ok (x : Frame) : Prop :=
  (anyMember x.joined = true ↔ x.state = .receiving)
    ∧ x.passOk
    ∧ x.coverage = x.rowMap.countP (fun e => e.state.isFilled)
    ∧ x.missed = x.rowMap.countP (fun e => e.state.isMissed)
    ∧ x.damaged = x.rowMap.countP (fun e => e.state.isDamaged)

abbrev State.framesOk (s : State) : Prop := ∀ f, (s.frame f).ok

/-- Views and their cursors (R88, R91): a frame that has a view is not FREE, the view's record names the frame and counts the
cursors open on it through PREVIOUS, and there are none on a frame without a view. -/
abbrev State.viewsOk (s : State) : Prop :=
  (∀ f v, (s.frame f).view = some v → (s.frame f).state ≠ .free
      ∧ ∃ y ∈ s.view v, y.frame = f ∧ y.cursors = (allCursors.filter (fun c => (s.cursor c).onPrevious f)).length)
    ∧ ∀ c f, (s.cursor c).onPrevious f = true → (s.frame f).view ≠ none

/-- Frames and sections (R97, R100): a frame is a member of a section exactly where it is the section's bound frame; a FREE one
of none; and an UNDEFINED group has no sections. -/
abbrev State.sectionsOk (s : State) : Prop :=
  (∀ f g k, (s.frame f).mosaic = some (g, k) ↔ s.sectionFrame g k = some f)
    ∧ (∀ f, (s.frame f).state = .free → (s.frame f).mosaic = none)
    ∧ ∀ g, (s.group g).state = .undefined → (s.group g).sections = []

/-- Nothing waits for the end of an event (log 12): no source is IDLE and unbound with a START held, the seam engine is
idle or has a read at the controller, and no read command is to take its next row with its holder empty. -/
abbrev State.atRest (s : State) : Prop :=
  (∀ i, (s.source i).held.isSome = true → (s.source i).state = .idle → (s.source i).binding.isSome = true)
    ∧ (s.engine.isSome = true → s.seamHolder.isSome = true)
    ∧ (∀ c, (s.cursor c).openFields.isSome = true → ∀ j ∈ (s.cursor c).job, j.phase = .retake →
        (s.holder (.cursor c)).isSome = true)

/-- A read command is in progress on a cursor only while its port is EXECUTING, and on one of the port's two cursors at a
time (R139, R175). -/
abbrev State.jobsOk (s : State) : Prop :=
  ∀ c, (s.cursor c).job.isSome = true →
    (s.port (ownerOf c)).state = .executing ∧ ∀ c', ownerOf c' = ownerOf c → c' ≠ c → (s.cursor c').job = none

end Sys2Proof.Machine
end

