-- ==== Sys2Proof/Certificates/Slice0/Obligations.lean ====
section
/-! DEFINITION. The statements for the provers. Each is about `exec` or `step` on every state that meets its
hypotheses. A conclusion `exec c s = .next t` with `t` written from `s` says everything the command does: what `t` does
not name is as `s` has it. -/

open Sys2Proof Sys2Proof.Machine

/-! ### The step, and the two resets of the whole part -/

/-- A step carries out the command at the front of the queue on the queue's rest; on an empty queue the block idles
(the model's choice, log 1). -/
def Obligations.StepCarriesOutTheFrontCommand : Prop :=
  (∀ (c : Instr) (rest : List Instr) (s : State),
      step { s with pending := c :: rest } = exec c { s with pending := rest })
    ∧ ∀ s : State, s.pending = [] → step s = .next s

/-- Every command has a next state on every state (R178: every request is answered with a status), and leaves the queue of
commands alone. The queue, what a command does that names no event, and what one does in a state the rules rule out are the
model's choices (logs 1, 2 and 27). -/
def Obligations.EveryCommandCompletes : Prop :=
  ∀ (c : Instr) (s : State), ∃ t, exec c s = .next t ∧ t.pending = s.pending

/-- The machine after reset is the part at power-on (its straps low by the model's choice, log 4), and every invariant
stated below holds of it. The record of a FREE slot holds the values of R75's last column, and an UNDEFINED group has no drum
class and no sections (R97). The model's choices are its height of 0 before any definition (log 38), that memory, whose
content the spec leaves undefined, lists nothing (log 5), that the queue of commands is empty (log 1), and
that the count of dropped PHASE records starts at 0 (log 37). -/
def Obligations.ResetStateIsPowerOn : Prop :=
  State.reset.isPoweredOn (fun _ => 0#8) ∧ State.reset.memory = [] ∧ State.reset.pending = []
    ∧ State.reset.memoryOk ∧ State.reset.noticesOk ∧ State.reset.queuesOk ∧ State.reset.ringsOk ∧ State.reset.framesOk
    ∧ State.reset.viewsOk ∧ State.reset.sectionsOk ∧ State.reset.atRest ∧ State.reset.jobsOk
    ∧ (∀ i, (State.reset.source i).rejections ≤ 8)
    ∧ (∀ stamp, Frame.freeWith stamp =
        { state := .free, entry := none, root := none, day := 0, station := 0, product := 0, geometry := none, pass := 0
          joined := .replicate 3 false, coverage := 0, missed := 0, damaged := 0, settledAt := none, title := [], mark := 0
          pins := { explicit := .replicate 3 false, retain := .replicate 6 false }, view := none, mosaic := none
          stamp := stamp, enable := false, pendingMark := false, memoryError := false, settleTimer := none, rowMap := [] })
    ∧ ∀ stamp, Group.undefinedWith stamp =
        { state := .undefined, drum := none, sections := [], height := 0, stamp := stamp }

/-- RESET puts the part in its power-on state with the straps sampled into the class masks. What memory held is undefined
again: the model lists nothing and counts the power-ons, by which an unlisted byte is a free value (log 5). That a group
never defined has height 0 is the model's choice (log 38), and
so is the count of dropped PHASE records, 0 (log 37). -/
def Obligations.ResetCommandPowersThePartOn : Prop :=
  ∀ (cfg0 cfg1 cfg2 : Byte) (s : State), ∃ t,
    exec (.reset cfg0 cfg1 cfg2) s = .next t ∧ t.isPoweredOn ![cfg0, cfg1, cfg2]
      ∧ t.memory = [] ∧ t.powerOns = s.powerOns + 1 ∧ t.pending = s.pending

/-- STORE_CLEAR frees the whole store and keeps the schedule, the clock, the configurations, the level tables, the
thresholds, the masks and the stamps (R183 and the rules it names), on a port that accepts it, where no source holds a
START (one that is held is taken against the cleared store). -/
def Obligations.StoreClearEmptiesTheStore : Prop :=
  ∀ (n : ClientId) (tag : Nat) (s : State), s.accepts n [.system] →
    (∀ i, (s.source i).held = none) →
    ∃ t, exec (.storeClear n tag) s = .next t
      ∧ t = { s with
          sources := t.sources, frames := t.frames, views := t.views, pool := t.pool, groups := t.groups
          seamQueue := t.seamQueue, engine := t.engine, writeQueue := t.writeQueue, holders := t.holders
          seamHolder := t.seamHolder, errors := t.errors, cursors := t.cursors, reservations := t.reservations
          clients := t.clients, ports := t.ports }
      ∧ (∀ i, t.source i =
          { s.source i with
            state := if (s.source i).state = .linkDown then .linkDown else .idle
            binding := none, firstSeq := none, expectedSeq := none, reference := 0, unphased := false
            positions := [], misses := 0, rejections := 0, ring := [], hysteresis := false
            linePeriodTimer := none, fadeTimer := none, head := .ready })
      ∧ (∀ f, t.frame f =
          if (s.frame f).state = .free then s.frame f
          else .freeWith (next16 (s.frame f).stamp))
      ∧ (∀ v, t.view v = none) ∧ (∀ p, t.poolRow p = none)
      ∧ t.seamQueue = [] ∧ t.engine = none
      ∧ (∀ g, (s.group g).state = .undefined → t.group g = s.group g)
      ∧ (∀ g, (s.group g).state ≠ .undefined →
          (t.group g).state = .gathering ∧ (t.group g).drum = (s.group g).drum
            ∧ (t.group g).sections = (s.group g).sections.map (fun x =>
                { x with frame := none, seam := x.seam.map (fun m => { m with adjustment := 0, state := .none, score := none }) })
            ∧ (t.group g).height = (t.heightOf (t.group g).sections).toNat
            ∧ (t.group g).stamp =
                if (s.group g).state = .gathering then (s.group g).stamp else next16 (s.group g).stamp)
      ∧ t.writeQueue = (s.writeQueue.filter (fun o => o.issued.isSome)).map (fun o => { o with stale := true })
      ∧ (∀ h r, t.holder h = some r → r.issued.isSome = true ∧ r.fate = .vanished)
      ∧ (∀ c, (t.cursor c).slot = .closed ∧ (t.cursor c).job = none)
      ∧ (∀ m, t.reservation m = { s.reservation m with valid := false })
      ∧ t.errors = []
      ∧ (∀ m, t.client m = { s.client m with pendingSet := [], line := false })
      ∧ (t.port n).state = .done ∧ (t.port n).buffer = some { status := .ok, tag := tag, body := [] }
      ∧ (∀ m, (t.port m).mask = (s.port m).mask)
      ∧ ∀ m, m ≠ n → (∀ c, ownerOf c = m → (s.cursor c).job = none) → t.port m = s.port m

/-- PORT_RESET closes the client's cursors, removes its explicit pins, makes its reservation invalid and empties its pending
set, on any port that takes a request, whatever its class mask (R184). Its reads at the controller are removed or abandoned
(R126). Its PREVIOUS cursors leave their views, and a settled frame's view that no other cursor reads is released (R91, R92,
R96); that the frame's stamp then advances is the model's reading (log 39). Other clients keep their cursors, RETAIN and
explicit pins, reads, reservations, notices and ports; a pool read of a released view alone learns that it is gone (R122). -/
def Obligations.PortResetGivesUpTheClientsHoldings : Prop :=
  ∀ (n : ClientId) (tag : Nat) (s : State), s.accepts n [] → s.viewsOk →
    let leaving (f : FrameId) : Nat := ((List.finRange 2).filter (fun k => (s.cursor (cursorOf n k)).onPrevious f)).length
    let released (f : FrameId) (v : ViewId) : Prop := ∃ y, (s.frame f).view = some v ∧ s.view v = some y ∧ leaving f ≠ 0
      ∧ y.cursors = leaving f ∧ ((s.frame f).state = .complete ∨ (s.frame f).state = .partialOnly)
    let viewLess (r : ReadRequest) : Prop := r.pool.isSome = true ∧ ∃ v, released r.slot v
    ∃ t, exec (.portReset n tag) s = .next t
      ∧ t = { s with
          frames := t.frames, views := t.views, pool := t.pool, holders := t.holders, seamHolder := t.seamHolder
          cursors := t.cursors, reservations := t.reservations, clients := t.clients, ports := t.ports }
      ∧ (∀ k, (t.cursor (cursorOf n k)).slot = .closed)
      ∧ (∀ k, s.holder (.cursor (cursorOf n k)) = none → t.holder (.cursor (cursorOf n k)) = none)
      ∧ (∀ k r, s.holder (.cursor (cursorOf n k)) = some r →
          (r.issued = none → t.holder (.cursor (cursorOf n k)) = none)
            ∧ (r.issued ≠ none → ∃ gone, t.holder (.cursor (cursorOf n k)) = some { r with abandoned := true, viewGone := gone }
              ∧ (viewLess r → gone = true) ∧ (¬ viewLess r → gone = r.viewGone)))
      ∧ (∀ f, ∃ pins : PinSet, pins.explicit = setMember (s.frame f).pins.explicit n false
          ∧ (∀ c, pins.retain[c] =
              if ownerOf c = n ∧ (s.cursor c).openFields.isSome = true then false else (s.frame f).pins.retain[c])
          ∧ ((∀ v, ¬ released f v) → t.frame f = { s.frame f with pins := pins })
          ∧ ∀ v, released f v → t.frame f = { s.frame f with
              pins := pins, view := none, stamp := next16 (s.frame f).stamp
              rowMap := (s.frame f).rowMap.map (fun e => { e with preserved := none, lost := false }) })
      ∧ (∀ v, (∀ f, (s.frame f).view ≠ some v) → t.view v = s.view v)
      ∧ (∀ f v y, (s.frame f).view = some v → s.view v = some y →
          (released f v → t.view v = none)
            ∧ (¬ released f v → t.view v = some { y with cursors := y.cursors - leaving f }))
      ∧ (∀ p, (∀ h f, s.poolRow p = some h → ¬ released f h.view) → t.poolRow p = s.poolRow p)
      ∧ (∀ p h f, s.poolRow p = some h → released f h.view → t.poolRow p = none)
      ∧ t.reservation n = { s.reservation n with valid := false }
      ∧ t.client n = { s.client n with pendingSet := [], line := false }
      ∧ (t.port n).state = .done ∧ (t.port n).buffer = some { status := .ok, tag := tag, body := [] }
      ∧ (t.port n).mask = (s.port n).mask
      ∧ (∀ m, m ≠ n → t.reservation m = s.reservation m ∧ t.client m = s.client m ∧ t.port m = s.port m)
      ∧ (∀ c, ownerOf c ≠ n → t.cursor c = s.cursor c
          ∧ ((∀ r, s.holder (.cursor c) = some r → ¬ viewLess r) → t.holder (.cursor c) = s.holder (.cursor c))
          ∧ ∀ r, s.holder (.cursor c) = some r → viewLess r → t.holder (.cursor c) = some { r with viewGone := true })
      ∧ ((∀ r, s.seamHolder = some r → r.pool = none) → t.seamHolder = s.seamHolder)

/-! ### The client ports (chapter 11) -/

/-- 50 ms after the reset pin is released each port becomes IDLE and READY is asserted; a frame written before that is
discarded. -/
def Obligations.StartupMakesPortsReady : Prop :=
  (∀ s : State, ∃ t, exec .portStartupDone s = .next t ∧ t = { s with ports := t.ports }
      ∧ (∀ n, t.port n = if (s.port n).state = .starting then { s.port n with state := .idle } else s.port n)
      ∧ ∀ n, (s.port n).state = .starting → (s.port n).readyLine = false ∧ (t.port n).readyLine = true)
    ∧ ∀ (n : ClientId) (s : State), (s.port n).state = .starting →
        exec (.frameWrittenWhileStarting n) s = .next s

/-- A frame written in EXECUTING does nothing but leave its tag as the busy tag (for one without a tag, a free one,
log 6); a frame refused in IDLE or DONE leaves its refusal in the buffer; one written in STARTING is discarded. -/
def Obligations.PortAnswersBusyAndRefusedFrames : Prop :=
  (∀ (n : ClientId) (tag : Nat) (s : State), (s.port n).state = .executing →
      exec (.requestWhileBusy n (some tag)) s = .next (s.setPort n { s.port n with busyTag := some tag }))
    ∧ (∀ (n : ClientId) (s : State), (s.port n).state = .executing →
        ∃ x, exec (.requestWhileBusy n none) s
          = .next { s.setPort n { s.port n with busyTag := some x } with freeDraws := s.freeDraws + 1 })
    ∧ (∀ (n : ClientId) (tag : Option Nat) (s : State), (s.port n).state = .idle ∨ (s.port n).state = .done →
        exec (.requestRefused n tag .check) s = .next (s.withAnswer n (tag.getD 0) .check [])
          ∧ exec (.requestRefused n tag .badRequest) s = .next (s.withAnswer n (tag.getD 0) .badRequest []))
    ∧ (∀ (n : ClientId) (tag : Nat) (r : FrameRefusal) (s : State), (s.port n).state = .executing →
        exec (.requestRefused n (some tag) r) s = .next (s.setPort n { s.port n with busyTag := some tag }))
    ∧ (∀ (n : ClientId) (r : FrameRefusal) (s : State), (s.port n).state = .executing →
        ∃ x, exec (.requestRefused n none r) s
          = .next { s.setPort n { s.port n with busyTag := some x } with freeDraws := s.freeDraws + 1 })
    ∧ ∀ (n : ClientId) (tag : Option Nat) (r : FrameRefusal) (s : State), (s.port n).state = .starting →
        exec (.requestRefused n tag r) s = .next s

/-- Reading a response gives BUSY in STARTING and EXECUTING and the buffer's frame in IDLE and DONE, and changes nothing but
what the client has last read (log 23). -/
def Obligations.ResponseReadShowsTheBuffer : Prop :=
  ∀ (n : ClientId) (s : State), ∃ r,
    exec (.responseRead n) s = .next (s.setPort n { s.port n with lastRead := some r })
      ∧ ((s.port n).state = .starting → r = { status := .busy, tag := 0, body := [] })
      ∧ ((s.port n).state = .executing →
          r = { status := .busy, tag := (s.port n).busyTag.getD (s.port n).tag, body := [] })
      ∧ (∀ b, (s.port n).state = .idle ∨ (s.port n).state = .done → (s.port n).buffer = some b → r = b)
      ∧ ((s.port n).state = .idle → (s.port n).buffer = none → r = { status := .noSuch, tag := 0, body := [] })

/-- Every client command is met by its port first: discarded in STARTING, BUSY in EXECUTING, DENIED without its class. -/
def Obligations.ClientCommandsMeetThePortFirst : Prop :=
  ∀ (c : Instr) (x : ClientFrame) (s : State), clientFrame c = some x →
    ((s.port x.port).state = .starting → exec c s = .next s)
      ∧ ((s.port x.port).state = .executing →
          exec c s = .next (s.setPort x.port { s.port x.port with busyTag := some x.tag }))
      ∧ ((s.port x.port).state = .idle ∨ (s.port x.port).state = .done → (s.port x.port).holds x.classes = false →
          exec c s = .next (s.withAnswer x.port x.tag .denied []))

/-- The queries answer with the records as they stand and change nothing; a number out of range is answered BAD_REQUEST. The
blocks of every response (the records of a source, an entry, a frame, a slot in FRAME_LIST, a group, an error and a pending
pair, a row entry, a naming and a row item) hold their fields in the order of R182, with the numbers, the codes and the
absent fields of R180. That a group never defined sends height 0 is the model's choice (log 38). -/
def Obligations.QueriesReportTheRecords : Prop :=
  (∀ (n : ClientId) (tag : Nat) (s : State), s.accepts n [] →
      exec (.getInfo n tag) s = .next (s.withAnswer n tag .ok
        ([0#8, 1#8, 1#8, 84#8, 1#8, byteOf n.val, (s.port n).mask, if s.clock.isSet then 1#8 else 0#8, 24#8, 64#8, 4#8, 2#8,
          0#8, 8#8, 3#8, 6#8, 8#8])))
    ∧ (∀ (n : ClientId) (tag : Nat) (s : State), s.accepts n [.read] →
      (∀ i : SourceId, exec (.sourceStatus n tag i.val) s = .next (s.withAnswer n tag .ok (s.source i).block)
          ∧ (s.source i).block.length = 28)
      ∧ (∀ k, 3 ≤ k → exec (.sourceStatus n tag k) s = .next (s.withAnswer n tag .badRequest []))
      ∧ exec (.frameList n tag) s
          = .next (s.withAnswer n tag .ok ((List.finRange 24).flatMap (fun f : FrameId => (s.frame f).listBlock)))
      ∧ ((List.finRange 24).flatMap (fun f : FrameId => (s.frame f).listBlock)).length = 216
      ∧ (∀ f : FrameId, exec (.frameInfo n tag f.val) s = .next (s.withAnswer n tag .ok (s.frameBlock f))
          ∧ ((s.frame f).title.length ≤ 32 → (s.frameBlock f).length = 74))
      ∧ (∀ k, 24 ≤ k → exec (.frameInfo n tag k) s = .next (s.withAnswer n tag .badRequest []))
      ∧ (∀ e : EntryId, exec (.scheduleRead n tag e.val) s = .next (s.withAnswer n tag .ok (s.entryAt e).block)
          ∧ (s.entryAt e).block.length = 31)
      ∧ (∀ k, 64 ≤ k → exec (.scheduleRead n tag k) s = .next (s.withAnswer n tag .badRequest []))
      ∧ (∀ g : GroupId, exec (.mosaicInfo n tag g.val) s = .next (s.withAnswer n tag .ok (s.groupBlock g))
          ∧ (s.groupBlock g).length = 7 + 11 * (s.group g).sections.length)
      ∧ ∀ k, 8 ≤ k → exec (.mosaicInfo n tag k) s = .next (s.withAnswer n tag .badRequest []))
    ∧ (∀ (s : State) (f : FrameId) (e : EntryId) (g : GroupId),
        s.frameBytes f = s.frameBlock f ∧ (s.entryAt e).bytes = (s.entryAt e).block ∧ s.groupBytes g = s.groupBlock g)
    ∧ (∀ (p : NoticePair) (r : ErrorRecord), p.bytes = p.block ∧ r.bytes = r.block
        ∧ p.detail.kindCode = p.detail.block.1 ∧ p.detail.bytes = p.detail.block.2
        ∧ p.block.length = 8 ∧ r.block.length = 17)
    ∧ (∀ (e : RowEntry) (x : Option Naming) (i : RowItem),
        e.report = e.block ∧ namingBytes x = namingBlock x ∧ i.bytes = i.block)
    ∧ (∀ n : Nat, byteOf n = BitVec.ofNat 8 n ∧ beBytes 2 n = [byteOf (n / 256), byteOf n]
        ∧ beBytes 3 n = [byteOf (n / 65536), byteOf (n / 256), byteOf n])
    ∧ [DrumClass.narrow, .standard, .wide].map drumCode = [0, 1, 2]
    ∧ [LineRate.lpm60, .lpm120, .lpm240].map rateCode = [0, 1, 2] ∧ [Direction.down, .up].map directionCode = [0, 1]
    ∧ [FrameState.free, .expected, .receiving, .settling, .complete, .partialOnly, .faulted].map FrameState.code
        = [0, 1, 2, 3, 4, 5, 6]
    ∧ [SourceState.idle, .phasing, .receiving, .faded, .draining, .discarding, .linkDown].map SourceState.code
        = [0, 1, 2, 3, 4, 5, 6]
    ∧ [GroupState.undefined, .gathering, .joining, .joined].map GroupState.code = [0, 1, 2, 3]
    ∧ [SeamState.none, .waiting, .queued, .searching, .found, .weak].map SeamState.code = [0, 1, 2, 3, 4, 5]
    ∧ [Status.ok, .busy, .check, .denied, .badRequest, .noSuch, .conflict, .inUse, .pinned, .noView, .rowLost, .rowDamaged,
        .notYet, .faulted, .clockUnset, .full, .lost].map Status.code = List.range 17
    ∧ [ErrorKind.lineRejected, .linkCheck, .ringOverrun, .frameExhausted, .linkLost, .writeFailed, .writeTimeout,
        .readCorrupt, .shadowExhausted, .frameFaulted].map ErrorKind.code = [1, 2, 3, 4, 5, 6, 7, 8, 9, 10]
    ∧ (∀ i, (Origin.source i).code = (0, i.val)) ∧ (∀ f, (Origin.frame f).code = (1, f.val))
    ∧ (∀ g, (Origin.group g).code = (2, g.val)) ∧ (∀ c, (Origin.client c).code = (3, c.val)) ∧ Origin.memory.code = (4, 0)

/-! ### The day clock and the schedule (chapter 1) -/

/-- SET_CLOCK loads the clock and makes it SET; GET_CLOCK reports it (R2). Nothing else changes where the new time lapses no
frame and nothing waits for the end of an event. -/
def Obligations.SetClockLoadsAndGetClockReports : Prop :=
  (∀ (n : ClientId) (tag second day code : Nat) (w : Weekday) (s t : State), s.accepts n [.system] → s.atRest →
      second ≤ 86399 → weekdayOfCode code = some w →
      t = { s with clock := { isSet := true, second := second, day := day, weekday := w } } → (∀ f, ¬ t.lapses f) →
      exec (.setClock n tag second day code) s = .next (t.withAnswer n tag .ok []))
    ∧ (∀ (n : ClientId) (tag second day code : Nat) (s : State), s.accepts n [.system] →
        86399 < second ∨ 6 < code →
        exec (.setClock n tag second day code) s = .next (s.withAnswer n tag .badRequest []))
    ∧ (∀ (n : ClientId) (tag : Nat) (s : State), s.accepts n [.read] → s.clock.isSet = false →
        exec (.getClock n tag) s = .next (s.withAnswer n tag .clockUnset []))
    ∧ ∀ (n : ClientId) (tag : Nat) (s : State), s.accepts n [.read] → s.clock.isSet = true →
        exec (.getClock n tag) s = .next (s.withAnswer n tag .ok
          (beBytes 3 s.clock.second ++ beBytes 2 s.clock.day ++ [byteOf (weekdayCode s.clock.weekday)]))

/-- A second from the crystal moves a SET clock on by one second, past 86399 to second 0 of the next day, and leaves an UNSET
clock (R1). Where no new minute is entered nothing else changes, and where one is, nothing but what a lapse brings. -/
def Obligations.ClockSecondAdvancesTheClock : Prop :=
  (∀ s : State, s.clock.isSet = false → exec .clockSecond s = .next s)
    ∧ (∀ s : State, s.clock.isSet = true → (s.clock.second + 1) % 60 ≠ 0 → s.clock.second < 86399 →
        exec .clockSecond s = .next { s with clock := { s.clock with second := s.clock.second + 1 } })
    ∧ (∀ s t : State, s.clock.isSet = true → (s.clock.second + 1) % 60 = 0 → s.clock.second < 86399 → s.atRest →
        t = { s with clock := { s.clock with second := s.clock.second + 1 } } → (∀ f, ¬ t.lapses f) →
        exec .clockSecond s = .next t)
    ∧ ∀ s t : State, s.clock.isSet = true → s.clock.second = 86399 → s.atRest →
        t = { s with clock :=
          { isSet := true, second := 0, day := (s.clock.day + 1) % 65536, weekday := weekdayAfter s.clock.weekday } } →
        (∀ f, ¬ t.lapses f) → exec .clockSecond s = .next t

/-- The check at a new minute, midnight included, and the one SET_CLOCK makes at its new time free every EXPECTED frame that is
unpinned and whose window has passed, and tell the clients that want to know. One that is pinned, or whose window has not
passed, stays EXPECTED as it is, and so does every frame in another state (R2, R20). -/
def Obligations.MinuteCheckLapsesPassedFrames : Prop :=
  ∀ (c : Instr) (clock : DayClock) (s : State), s.atRest →
    (c = .clockSecond ∧ s.clock.isSet = true
        ∧ ((s.clock.second + 1) % 60 = 0 ∧ s.clock.second < 86399
            ∧ clock = { s.clock with second := s.clock.second + 1 }
          ∨ s.clock.second = 86399
            ∧ clock = { isSet := true, second := 0, day := (s.clock.day + 1) % 65536
                        weekday := weekdayAfter s.clock.weekday })
      ∨ ∃ n tag second day code w, c = .setClock n tag second day code ∧ s.accepts n [.system] ∧ second ≤ 86399
          ∧ weekdayOfCode code = some w ∧ clock = { isSet := true, second := second, day := day, weekday := w }) →
    let now : State := { s with clock := clock }
    let pinned (f : FrameId) : Prop := (∃ n : ClientId, (s.frame f).pins.explicit[n] = true)
      ∨ ∃ (d : CursorId) (k : CursorFields), (s.frame f).pins.retain[d] = true ∧ (s.cursor d).slot = .opened k
          ∧ (k.attachment = .current f ∨ k.attachment = .previous f)
    ∃ t, exec c s = .next t ∧ t.clock = clock
      ∧ (∀ f, now.lapses f →
          t.frame f = .freeWith (next16 (s.frame f).stamp)
            ∧ ∀ n, (s.client n).levels[(3 : Fin 16)] ≠ 0 →
                ∃ p ∈ (t.client n).pendingSet, p.origin = .frame f ∧ p.detail = .expectedLapsed (s.frame f).entry)
      ∧ (∀ f, (s.frame f).state = .expected → pinned f ∨ ¬ now.windowOver f →
          t.frame f = { s.frame f with pins := (t.frame f).pins }
            ∧ (t.frame f).pins.explicit = (s.frame f).pins.explicit)
      ∧ (∀ f, (s.frame f).state ≠ .expected →
          t.frame f = { s.frame f with pins := (t.frame f).pins }
            ∧ (t.frame f).pins.explicit = (s.frame f).pins.explicit)
      ∧ ∀ n tag second day code, c = .setClock n tag second day code → s.jobsOk →
          (t.port n).state = .done ∧ (t.port n).buffer = some { status := .ok, tag := tag, body := [] }

/-- PREPARE sets the lowest FREE slot up as an EXPECTED frame of the entry's key, for the day given or for today's
broadcast; it refuses a key that is held, a full table, a VACANT entry and an unknown day (R19). That NO_SUCH for a VACANT
entry comes before CLOCK_UNSET is the model's choice (log 17), and so is that a day-given byte above 1 counts as a yes or as a
no, which is free (log 7). -/
def Obligations.PrepareSetsUpAnExpectedFrame : Prop :=
  (∀ (n : ClientId) (tag k asked day : Nat) (e : EntryId) (m : EntryMode) (d : EntryFields) (s : State),
      s.accepts n [.frameEdit] → (s.entryAt e).definition = some (m, d) →
      (k = 1 ∧ asked ≤ 65535 ∧ day = asked
        ∨ k = 0 ∧ s.clock.isSet = true
            ∧ day = (s.clock.day + 65536 - if d.repeatOf.isSome then d.dayShift else 0) % 65536) →
      (∀ f, (s.frame f).state ≠ .free → (s.frame f).root = some (d.repeatOf.getD e) → (s.frame f).day = day →
          (∀ g, g < f → ¬ ((s.frame g).state ≠ .free ∧ (s.frame g).root = some (d.repeatOf.getD e)
            ∧ (s.frame g).day = day)) →
          exec (.prepare n tag e.val k asked) s = .next (s.withAnswer n tag .conflict [byteOf f.val]))
        ∧ ((∀ f, ¬ ((s.frame f).state ≠ .free ∧ (s.frame f).root = some (d.repeatOf.getD e)
              ∧ (s.frame f).day = day)) →
            ((∀ f, (s.frame f).state ≠ .free) →
              exec (.prepare n tag e.val k asked) s = .next (s.withAnswer n tag .full []))
            ∧ ∀ f, (s.frame f).state = .free → (∀ g, g < f → (s.frame g).state ≠ .free) →
                exec (.prepare n tag e.val k asked) s = .next ((s.setFrame f
                  { Frame.freeWith (next16 (s.frame f).stamp) with
                    state := .expected, entry := some e, root := some (d.repeatOf.getD e), day := day
                    station := d.station, product := d.product
                    geometry := some { drum := d.drum, rate := d.rate, direction := d.direction, rows := d.rows }
                    rowMap := s.freshMap f d.rows }).withAnswer n tag .ok [byteOf f.val])))
    ∧ (∀ (n : ClientId) (tag asked : Nat) (k : Nat) (s : State), s.accepts n [.frameEdit] → k ≤ 1 →
        (∀ e, 64 ≤ e → exec (.prepare n tag e k asked) s = .next (s.withAnswer n tag .badRequest []))
          ∧ (∀ e : EntryId, k = 1 → 65535 < asked →
              exec (.prepare n tag e.val k asked) s = .next (s.withAnswer n tag .badRequest []))
          ∧ (∀ e : EntryId, asked ≤ 65535 → (s.entryAt e).definition = none →
              exec (.prepare n tag e.val k asked) s = .next (s.withAnswer n tag .noSuch []))
          ∧ ∀ e : EntryId, k = 0 → (s.entryAt e).definition.isSome = true → s.clock.isSet = false →
              exec (.prepare n tag e.val k asked) s = .next (s.withAnswer n tag .clockUnset []))
    ∧ (∀ (n : ClientId) (tag e k asked : Nat) (s : State), 1 < k →
        exec (.prepare n tag e k asked) s = exec (.prepare n tag e 0 asked) s
          ∨ exec (.prepare n tag e k asked) s = exec (.prepare n tag e 1 asked) s)
    ∧ ∀ (s : State) (f : FrameId) (rows : Nat), (s.freshMap f rows).length = rows
        ∧ ∀ r e, (s.freshMap f rows)[r]? = some e →
            e.state = .empty ∧ e.preserved = none ∧ e.lost = false
              ∧ (e.inFlight ≠ .no ↔ ∃ o ∈ s.writeQueue, o.slot = f ∧ o.row = r ∧ o.issued.isSome = true)

/-- The chosen entry of a START is an ACTIVE entry that passes the four tests of R5, none of which lies nearer its start
minute, and none as near with a lower index (R6); and where none passes, there is none. The distance of two minutes is the
smaller way round the 1,440 minutes of the day. -/
def Obligations.ChosenEntryIsTheNearestCandidate : Prop :=
  (∀ m n : Nat, minuteDistance m n = min ((m : Int) - n).natAbs (1440 - ((m : Int) - n).natAbs))
    ∧ ∀ (s : State) (x : StartRecord),
    (∀ e d, s.chosenEntry x = some (e, d) →
      (s.entryAt e).definition = some (.active, d) ∧ x.frequency ∈ d.frequencies ∧ x.drum = d.drum ∧ x.rate = d.rate
        ∧ d.days[weekdayIndex s.clock.weekday] = true
        ∧ minuteDistance (s.clock.second / 60) d.startMinute ≤ d.tolerance
        ∧ ∀ e' d', (s.entryAt e').definition = some (.active, d') → x.frequency ∈ d'.frequencies → x.drum = d'.drum →
            x.rate = d'.rate → d'.days[weekdayIndex s.clock.weekday] = true →
            minuteDistance (s.clock.second / 60) d'.startMinute ≤ d'.tolerance →
            minuteDistance (s.clock.second / 60) d.startMinute < minuteDistance (s.clock.second / 60) d'.startMinute
              ∨ minuteDistance (s.clock.second / 60) d.startMinute = minuteDistance (s.clock.second / 60) d'.startMinute
                ∧ e ≤ e')
      ∧ (s.chosenEntry x = none → ∀ e d, (s.entryAt e).definition = some (.active, d) → x.frequency ∈ d.frequencies →
          x.drum = d.drum → x.rate = d.rate → d.days[weekdayIndex s.clock.weekday] = true →
          d.tolerance < minuteDistance (s.clock.second / 60) d.startMinute)

/-- A START with no binding: unscheduled with ad hoc capture off, it raises UNSCHEDULED (R8); scheduled or ad hoc with no slot
FREE or evictable, it logs FRAME_EXHAUSTED (R16), and a frame that holds its key but cannot take it keeps the key (R13). The
source goes to DISCARDING. -/
def Obligations.StartWithoutABindingIsDiscarded : Prop :=
  ∀ (i : SourceId) (frequency : Nat) (drum : DrumClass) (rate : LineRate) (s : State),
    (s.source i).state = .idle → (s.source i).binding = none → s.atRest →
    (s.clock.isSet = false ∨ s.chosenEntry { frequency := frequency, drum := drum, rate := rate } = none →
        ((s.source i).config.adHoc = false →
          exec (.start i frequency drum rate) s = .next
            ((s.setSource i { s.source i with state := .discarding, silenceTimer := some 2000, checkFailures := 0 }).raise
              (.source i) (.unscheduled (!s.clock.isSet))))
        ∧ ((s.source i).config.adHoc = true → (∀ f, (s.frame f).state ≠ .free ∧ (s.frame f).isEvictable = false) →
          exec (.start i frequency drum rate) s = .next
            ((s.setSource i { s.source i with state := .discarding, silenceTimer := some 2000, checkFailures := 0 }).logError
              { kind := .frameExhausted, origin := .source i, frame := none, row := none, pass := none, detail := 2 })))
      ∧ ∀ e d, s.clock.isSet = true →
          s.chosenEntry { frequency := frequency, drum := drum, rate := rate } = some (e, d) →
          (∀ f, (s.frame f).state ≠ .free ∧ (s.frame f).isEvictable = false) →
          (∀ f, s.holdsKey f e d → s.cannotTake f e d) →
          exec (.start i frequency drum rate) s = .next
            ((s.setSource i { s.source i with state := .discarding, silenceTimer := some 2000, checkFailures := 0 }).logError
              { kind := .frameExhausted, origin := .source i, frame := none, row := none, pass := none, detail := 1 })

/-- A START that joins nothing takes the lowest FREE slot as a fresh frame at pass 1 (R14), or, where none is FREE, the slot of
the unpinned settled frame with the oldest settled-at time (R15); with a chosen entry by its key, or ad hoc (R8). A frame that
holds the key but cannot take the START loses entry and root entry and keeps the rest (R13). The source sets up the stream
(R25) and FRAME_BOUND is raised (R17). A section that matches and fits takes the fresh frame, in an evicted slot too, which
has left its own section first (R100, R101, R103). That the stamp of an evicted slot advances by two is the model's reading
(log 29). -/
def Obligations.StartTakesAFreshFrame : Prop :=
  ∀ (i : SourceId) (frequency : Nat) (drum : DrumClass) (rate : LineRate) (f : FrameId) (k : FrameIdentity)
    (old : Option FrameId) (s : State),
    (s.source i).state = .idle → (s.source i).binding = none → s.atRest →
    ((∃ e d, s.clock.isSet = true ∧ s.chosenEntry { frequency := frequency, drum := drum, rate := rate } = some (e, d)
        ∧ (∀ g, s.holdsKey g e d ↔ old = some g) ∧ (∀ g, old = some g → s.cannotTake g e d)
        ∧ k = { entry := some e, root := some (d.repeatOf.getD e)
                day := (s.clock.day + 65536 - if d.repeatOf.isSome then d.dayShift else 0) % 65536
                station := d.station, product := d.product
                geometry := { drum := d.drum, rate := d.rate, direction := d.direction, rows := d.rows } })
      ∨ (s.clock.isSet = false ∨ s.chosenEntry { frequency := frequency, drum := drum, rate := rate } = none)
        ∧ (s.source i).config.adHoc = true ∧ old = none
        ∧ k = { entry := none, root := none, day := if s.clock.isSet then s.clock.day else 0, station := 0, product := 0
                geometry := { drum := drum, rate := rate, direction := .down, rows := 2048 } }) →
    let stream : Source :=
      { s.source i with
        state := .phasing, silenceTimer := some 2000, checkFailures := 0
        binding := some { frame := f, pass := 1, geometry := k.geometry }
        firstSeq := none, expectedSeq := none, reference := 0, unphased := false, positions := [], misses := 0
        rejections := 0, linePeriodTimer := none, fadeTimer := none }
    let fresh : Frame :=
      { Frame.freeWith (next16 (s.frame f).stamp) with
        state := .receiving, entry := k.entry, root := k.root, day := k.day, station := k.station
        product := k.product, geometry := some k.geometry, pass := 1, enable := true
        joined := setMember (.replicate 3 false) i true, rowMap := s.freshMap f k.geometry.rows }
    let handed (g : FrameId) : Frame :=
      if old = some g then { s.frame g with entry := none, root := none } else s.frame g
    let unclaimed : Prop := ∀ e, k.entry = some e → ∀ h j x, (s.group h).sections[j]? = some x →
      s.sectionMatches e x → ¬ s.sectionFits h j k.geometry
    ((s.frame f).state = .free → (∀ g, g < f → (s.frame g).state ≠ .free) →
        (unclaimed →
          (old = none → exec (.start i frequency drum rate) s = .next
            (((s.setFrame f fresh).setSource i stream).raise (.frame f) (.frameBound i .fresh)))
          ∧ ∀ o, old = some o → exec (.start i frequency drum rate) s = .next
            ((((s.setFrame o (handed o)).setFrame f fresh).setSource i stream).raise (.frame f) (.frameBound i .fresh)))
        ∧ ∀ e h j x, k.entry = some e → (s.group h).sections[j]? = some x → s.sectionMatches e x →
            s.sectionFits h j k.geometry → (s.group h).state ≠ .undefined → x.frame ≠ some f →
            (∀ h' j' y, (s.group h').sections[j']? = some y → y.entry = x.entry → h' = h ∧ j' = j) →
            ∃ t, exec (.start i frequency drum rate) s = .next t ∧ t.source i = stream
              ∧ t.frame f = { fresh with mosaic := some (h, j), pins := (t.frame f).pins }
              ∧ t.sectionFrame h j = some f ∧ s.regathers t h j .newFrame
              ∧ ∀ g, g ≠ f → t.frame g =
                { handed g with
                  pins := (t.frame g).pins
                  mosaic := if x.frame = some g then none else (s.frame g).mosaic })
      ∧ ((∀ g, (s.frame g).state ≠ .free) → (s.frame f).isEvictable = true →
          (∀ g, (s.frame g).isEvictable = true →
            (s.frame f).settledTime < (s.frame g).settledTime
              ∨ (s.frame f).settledTime = (s.frame g).settledTime ∧ f ≤ g) →
          ∃ t, exec (.start i frequency drum rate) s = .next t
            ∧ t.source i = { stream with head := (t.source i).head }
            ∧ t.frame f = { fresh with
                stamp := next16 (next16 (s.frame f).stamp), mosaic := (t.frame f).mosaic, pins := (t.frame f).pins }
            ∧ (t.frame f).pins.explicit = .replicate 3 false
            ∧ (unclaimed → (t.frame f).pins = .empty ∧ (t.frame f).mosaic = none
              ∧ ∀ g, g ≠ f → t.frame g = { handed g with pins := (t.frame g).pins })
            ∧ (∀ e h j x, k.entry = some e → (s.group h).sections[j]? = some x → s.sectionMatches e x →
              s.sectionFits h j k.geometry → (s.group h).state ≠ .undefined →
              ((s.frame f).mosaic = some (h, j) → x.frame = some f) →
              (∀ h' j' y, (s.group h').sections[j']? = some y → y.entry = x.entry → h' = h ∧ j' = j) →
              s.sectionTook t f h j
                ∧ ((s.frame f).mosaic = some (h, j) → s.regathers t h j .free)
                ∧ ∀ g, g ≠ f → t.frame g =
                  { handed g with
                    pins := (t.frame g).pins
                    mosaic := if x.frame = some g then none else (s.frame g).mosaic })
            ∧ ∀ n, ((s.client n).levels[(2 : Fin 16)] ≠ 0 →
                  ∃ p ∈ (t.client n).pendingSet, p.origin = .frame f ∧ p.detail = .frameEvicted i)
                ∧ ((s.client n).levels[(0 : Fin 16)] ≠ 0 →
                  ∃ p ∈ (t.client n).pendingSet, p.origin = .frame f ∧ p.detail = .frameBound i .fresh))

/-- A START whose key a RECEIVING frame holds joins its pass (R9); one whose key a SETTLING frame bound through the same entry
holds rejoins it (R10). The frame keeps pass and marks, and a section whose bound frame it is already stays as it is. Another
section that matches the frame's entry and fits takes it from the section it was in, if any, and is changed (R100, R103). -/
def Obligations.StartJoinsOrRejoinsThePass : Prop :=
  ∀ (i : SourceId) (frequency : Nat) (drum : DrumClass) (rate : LineRate) (f : FrameId) (e : EntryId) (d : EntryFields)
    (g : Geometry) (s : State),
    (s.source i).state = .idle → (s.source i).binding = none → s.atRest → s.clock.isSet = true →
    s.chosenEntry { frequency := frequency, drum := drum, rate := rate } = some (e, d) →
    (∀ k, s.holdsKey k e d ↔ k = f) → (s.frame f).geometry = some g →
    let stream : Source :=
      { s.source i with
        state := .phasing, silenceTimer := some 2000, checkFailures := 0
        binding := some { frame := f, pass := (s.frame f).pass, geometry := g }
        firstSeq := none, expectedSeq := none, reference := 0, unphased := false, positions := [], misses := 0
        rejections := 0, linePeriodTimer := none, fadeTimer := none }
    let joined : Vector Bool 3 := setMember (s.frame f).joined i true
    ∀ (now : Frame) (kind : BindingKind),
      ((s.frame f).state = .receiving
          ∧ ((s.frame f).entry = some e
            ∨ g = { drum := d.drum, rate := d.rate, direction := d.direction, rows := d.rows })
          ∧ now = { s.frame f with joined := joined } ∧ kind = .join
        ∨ (s.frame f).state = .settling ∧ (s.frame f).entry = some e ∧ kind = .rejoin
          ∧ now = { s.frame f with
              state := .receiving, settleTimer := none, joined := joined, stamp := next16 (s.frame f).stamp }) →
      ((∀ b h j x, (s.frame f).entry = some b → (s.group h).sections[j]? = some x → s.sectionMatches b x →
            s.sectionFits h j g → x.frame = some f) →
          exec (.start i frequency drum rate) s = .next
            (((s.setFrame f now).setSource i stream).raise (.frame f) (.frameBound i kind)))
        ∧ ∀ b h j x, (s.frame f).entry = some b → (s.group h).sections[j]? = some x → s.sectionMatches b x →
          s.sectionFits h j g → (s.group h).state ≠ .undefined → x.frame ≠ some f →
          (s.frame f).mosaic ≠ some (h, j) →
          (∀ h' j' y, (s.group h').sections[j']? = some y → y.entry = x.entry → h' = h ∧ j' = j) →
          ∃ t, exec (.start i frequency drum rate) s = .next t ∧ t.source i = stream ∧ t.memory = s.memory
            ∧ t.frame f = { now with mosaic := some (h, j), pins := (t.frame f).pins }
            ∧ (t.frame f).pins.explicit = (s.frame f).pins.explicit ∧ s.sectionTook t f h j
            ∧ (∀ q, q ≠ f → t.frame q =
                { s.frame q with
                  pins := (t.frame q).pins
                  mosaic := if x.frame = some q then none else (s.frame q).mosaic })
            ∧ ∀ n, (s.client n).levels[(0 : Fin 16)] ≠ 0 →
                ∃ p ∈ (t.client n).pendingSet, p.origin = .frame f ∧ p.detail = .frameBound i kind

/-- A START whose key a settled frame of the same geometry holds at pass 14 or less opens a new pass, with a view of the old
one in the lowest free view slot (R11, R87, R89), and a section bound to the frame is changed (R101, R103). A view that the
frame has already is released first: its pool rows go back, its PREVIOUS cursors become LOST with CURSOR_LOST, and its slot is
free for the new view (R87, R91, R92, R154). A pass that the join overtakes while the frame is SETTLING with both marks set is
settled at the join, with the PASS_SETTLED it is owed; without them nothing is raised for it (R85). One whose key an EXPECTED
frame holds takes that frame at pass 1, its map built anew (R12); a cursor on it whose window the new rows do not hold takes
the whole map, at its first row or, with a negative step, its last (R143). -/
def Obligations.StartOpensANewPassOrTakesTheExpectedFrame : Prop :=
  ∀ (i : SourceId) (frequency : Nat) (drum : DrumClass) (rate : LineRate) (f : FrameId) (e : EntryId) (d : EntryFields)
    (s : State),
    (s.source i).state = .idle → (s.source i).binding = none → s.atRest → s.clock.isSet = true →
    s.chosenEntry { frequency := frequency, drum := drum, rate := rate } = some (e, d) →
    (∀ k, s.holdsKey k e d ↔ k = f) →
    let g : Geometry := { drum := d.drum, rate := d.rate, direction := d.direction, rows := d.rows }
    let bound (t : State) (pass : Nat) (kind : BindingKind) : Prop :=
      t.source i = { s.source i with
          state := .phasing, silenceTimer := some 2000, checkFailures := 0
          binding := some { frame := f, pass := pass, geometry := g }
          firstSeq := none, expectedSeq := none, reference := 0, unphased := false, positions := [], misses := 0
          rejections := 0, linePeriodTimer := none, fadeTimer := none }
        ∧ (t.frame f).state = .receiving ∧ (t.frame f).pass = pass ∧ (t.frame f).entry = some e
        ∧ (t.frame f).root = (s.frame f).root ∧ (t.frame f).day = (s.frame f).day
        ∧ (t.frame f).station = d.station ∧ (t.frame f).product = d.product ∧ (t.frame f).geometry = some g
        ∧ (t.frame f).joined = setMember (.replicate 3 false) i true ∧ (t.frame f).enable = true
        ∧ (t.frame f).pendingMark = false ∧ (t.frame f).title = (s.frame f).title
        ∧ (t.frame f).pins.explicit = (s.frame f).pins.explicit ∧ (t.frame f).stamp = next16 (s.frame f).stamp
        ∧ ∀ n, (s.client n).levels[(0 : Fin 16)] ≠ 0 →
            ∃ p ∈ (t.client n).pendingSet, p.origin = .frame f ∧ p.detail = .frameBound i kind
    (((s.frame f).state = .complete ∨ (s.frame f).state = .partialOnly
          ∨ (s.frame f).state = .settling ∧ (s.frame f).entry ≠ some e) →
        (s.frame f).geometry = some g → (s.frame f).pass < 15 →
        ∃ t, exec (.start i frequency drum rate) s = .next t ∧ bound t ((s.frame f).pass + 1) .newPass
          ∧ t.memory = s.memory
          ∧ (t.frame f).rowMap.map RowEntry.state = (s.frame f).rowMap.map RowEntry.state
          ∧ (t.frame f).coverage = (s.frame f).coverage ∧ (t.frame f).missed = (s.frame f).missed
          ∧ (t.frame f).damaged = (s.frame f).damaged
          ∧ (let owed := (s.frame f).state = .settling ∧ (s.frame f).enable = true ∧ (s.frame f).pendingMark = true
            (owed → (t.frame f).settledAt = some (s.clock.day, s.clock.second)
                ∧ ∀ n, (s.client n).levels[(1 : Fin 16)] ≠ 0 → ∃ p ∈ (t.client n).pendingSet, p.origin = .frame f
                    ∧ p.detail = .passSettled (s.frame f).pass
                      (decide (s.storeConfig.completePerMille * g.rows ≤ (s.frame f).coverage * 1000)))
              ∧ (¬ owed → (t.frame f).settledAt = (s.frame f).settledAt
                ∧ ∀ n, ∀ p ∈ (t.client n).pendingSet, p.origin = .frame f → p.detail.kindIndex = 1 →
                    p ∈ (s.client n).pendingSet))
          ∧ (∀ o ∈ t.writeQueue, o.slot = f → o.stale = true)
          ∧ (∀ v, (s.frame f).view = none → s.view v = none → (∀ w, w < v → s.view w ≠ none) →
              (t.frame f).view = some v
                ∧ t.view v = some { frame := f, generation := (s.frame f).pass, torn := false, held := 0, cursors := 0 })
          ∧ ((s.frame f).view = none → (∀ w, s.view w ≠ none) → (t.frame f).view = none ∧ t.views = s.views)
          ∧ (∀ o v, (s.frame f).view = some o → v = o ∨ s.view v = none → (∀ w, w < v → w ≠ o ∧ s.view w ≠ none) →
              (t.frame f).view = some v
                ∧ t.view v = some { frame := f, generation := (s.frame f).pass, torn := false, held := 0, cursors := 0 }
                ∧ (∀ w, w ≠ v → t.view w = if w = o then none else s.view w)
                ∧ (∀ p h, s.poolRow p = some h → t.poolRow p = if h.view = o then none else some h)
                ∧ (∀ x ∈ (t.frame f).rowMap, x.preserved = none ∧ x.lost = false)
                ∧ ∀ c k, (s.cursor c).slot = .opened k → k.attachment = .previous f →
                    (t.cursor c).slot = .lost k
                      ∧ ((s.client (ownerOf c)).levels[(12 : Fin 16)] ≠ 0 →
                        ∃ q ∈ (t.client (ownerOf c)).pendingSet, q.origin = .client (ownerOf c)
                          ∧ ∃ d, ownerOf d = ownerOf c ∧ q.detail = .cursorLostFrame d f .viewReleased))
          ∧ ∀ h k, (s.frame f).mosaic = some (h, k) → s.sectionFrame h k = some f → (s.group h).state ≠ .undefined →
              (∀ h' j x, (s.group h').sections[j]? = some x → s.sectionMatches e x → s.sectionFits h' j g →
                x.frame = some f) →
              (t.frame f).mosaic = some (h, k) ∧ t.sectionFrame h k = some f ∧ s.regathers t h k .newPass)
      ∧ ((s.frame f).state = .expected →
        ∃ t, exec (.start i frequency drum rate) s = .next t ∧ bound t 1 .expected
          ∧ t.memory = s.memory ∧ (t.frame f).rowMap.length = d.rows
          ∧ (∀ x ∈ (t.frame f).rowMap, x.state = .empty)
          ∧ (t.frame f).coverage = 0 ∧ (t.frame f).missed = 0 ∧ (t.frame f).damaged = 0
          ∧ (∀ c k, (s.cursor c).slot = .opened k → k.attachment = .current f ∨ k.attachment = .previous f →
              t.cursor c = { s.cursor c with
                slot := .opened (if k.base + k.length ≤ d.rows then k
                  else { k with base := 0, length := d.rows, position := if 0 < k.step then 0 else d.rows - 1 }) })
          ∧ ∀ c, (∀ k, (s.cursor c).slot = .opened k → k.attachment ≠ .current f ∧ k.attachment ≠ .previous f) →
              t.cursor c = s.cursor c)

/-! ### The line links (chapter 2) -/

/-- A START during a stream ends it with a marker of end "lost" and is held; one in DRAINING, or in an IDLE source that is
still bound, is held too, and HOLD is asserted; one in DISCARDING is taken as in IDLE (R26, R30, R45). -/
def Obligations.StartDuringAStreamIsHeld : Prop :=
  ∀ (i : SourceId) (frequency : Nat) (drum : DrumClass) (rate : LineRate) (s : State),
    let x := s.source i
    let held : Option StartRecord := some { frequency := frequency, drum := drum, rate := rate }
    (s.atRest → x.state = .phasing ∨ x.state = .receiving ∨ x.state = .faded →
        exec (.start i frequency drum rate) s = .next (s.setSource i
          { x with
            state := .draining, held := held, ring := x.ring ++ [.marker .lost]
            hysteresis := if 11 ≤ x.ring.length then true else x.hysteresis
            linePeriodTimer := none, fadeTimer := none, silenceTimer := some 2000, checkFailures := 0 }))
      ∧ (s.atRest → x.state = .draining ∨ x.state = .idle ∧ x.binding.isSome = true →
        exec (.start i frequency drum rate) s = .next (s.setSource i
          { x with held := held, silenceTimer := some 2000, checkFailures := 0 }))
      ∧ (x.state = .discarding → x.binding = none →
        exec (.start i frequency drum rate) s
          = exec (.start i frequency drum rate) (s.setSource i { x with state := .idle }))
      ∧ ∀ t, s.atRest → x.state = .draining → exec (.start i frequency drum rate) s = .next t →
          (t.source i).holdLine = true

/-- A PHASE in PHASING within the width is kept, and the phasing count ends phasing with the median as the reference (R27);
in DISCARDING it is dropped and counted (R16), in a count that the model keeps beside the five of R47 (log 37); elsewhere
outside LINK_DOWN it is only a good record (R22, R42). -/
def Obligations.PhasingTakesTheMedian : Prop :=
  (∀ (i : SourceId) (sequence pulse : Nat) (b : StreamBinding) (s : State), s.atRest →
      let x := s.source i
      x.state = .phasing → x.binding = some b →
      (drumWidth b.geometry.drum ≤ pulse →
          exec (.phase i sequence pulse) s
            = .next (s.setSource i { x with silenceTimer := some 2000, checkFailures := 0 }))
        ∧ (pulse < drumWidth b.geometry.drum → x.positions.length + 1 < x.config.phasingCount →
          exec (.phase i sequence pulse) s
            = .next (s.setSource i
                { x with silenceTimer := some 2000, checkFailures := 0, positions := x.positions ++ [pulse] }))
        ∧ (pulse < drumWidth b.geometry.drum → x.config.phasingCount ≤ x.positions.length + 1 →
          exec (.phase i sequence pulse) s
            = .next (s.setSource i
                { x with
                  silenceTimer := some 2000, checkFailures := 0, state := .receiving, unphased := false
                  positions := [], reference := medianColumn (x.positions ++ [pulse]) })))
    ∧ (∀ (i : SourceId) (sequence pulse : Nat) (s : State), s.atRest → (s.source i).state ≠ .phasing →
        (s.source i).state ≠ .discarding → (s.source i).state ≠ .linkDown →
        exec (.phase i sequence pulse) s
          = .next (s.setSource i { s.source i with silenceTimer := some 2000, checkFailures := 0 }))
    ∧ (∀ (i : SourceId) (sequence pulse : Nat) (s : State), s.atRest →
        let x := s.source i
        x.state = .discarding →
        exec (.phase i sequence pulse) s = .next (s.setSource i
          { x with
            silenceTimer := some 2000, checkFailures := 0
            counters := { x.counters with phases := stickyNext 65535 x.counters.phases } }))
    ∧ ∀ l : List Nat, l ≠ [] → medianColumn l ∈ l
        ∧ l.countP (fun c => decide (c < medianColumn l)) < (l.length + 1) / 2
        ∧ (l.length + 1) / 2 ≤ l.countP (fun c => decide (c ≤ medianColumn l))

/-- A line that passes both tests is stamped with the reference before its tracking step and pushed, or lost where the ring
holds 15 records (R31 to R34); in PHASING it first ends phasing early (R28); in IDLE, DRAINING and DISCARDING it is only
counted (R42). -/
def Obligations.ImageIsPushedWithItsStamp : Prop :=
  (∀ (i : SourceId) (sequence skew quality : Nat) (payload : List Byte) (b : StreamBinding) (s : State), s.atRest →
      let x := s.source i
      x.state = .receiving ∨ x.state = .faded → x.binding = some b → payload.length = drumBytes b.geometry.drum →
      skew < drumWidth b.geometry.drum →
      let offset := foldOffset (drumWidth b.geometry.drum) ((skew : Int) - (x.reference : Int))
      let taken : Source :=
        { x with
          silenceTimer := some 2000, checkFailures := 0
          counters := { x.counters with received := stickyNext 65535 x.counters.received }
          reference :=
            if 0 < offset ∧ offset ≤ x.config.trackWindow then (x.reference + 1) % drumWidth b.geometry.drum
            else if offset < 0 ∧ -offset ≤ x.config.trackWindow then
              (x.reference + drumWidth b.geometry.drum - 1) % drumWidth b.geometry.drum
            else x.reference
          firstSeq := some (x.firstSeq.getD sequence)
          expectedSeq := x.expectedAfter sequence
          misses := if x.state = .receiving then 0 else x.misses
          linePeriodTimer := some (arrivalMs b.geometry.rate)
          fadeTimer := if x.state = .faded then some (x.config.fadeLimit * 1000) else x.fadeTimer }
      (x.ring.length ≤ 14 →
          exec (.image i sequence skew quality payload) s = .next (s.setSource i
            { taken with
              ring := x.ring ++ [.line
                { sequence := sequence, skew := skew, quality := quality, payload := payload, reference := x.reference
                  unphased := x.unphased, faded := decide (x.state = .faded) }]
              hysteresis := if 11 ≤ x.ring.length then true else x.hysteresis }))
        ∧ (15 ≤ x.ring.length →
          exec (.image i sequence skew quality payload) s = .next ((s.setSource i
            { taken with counters := { taken.counters with overrun := stickyNext 65535 x.counters.overrun } }).logError
              { kind := .ringOverrun, origin := .source i, frame := some b.frame, row := none, pass := some b.pass
                detail := sequence % 256 })))
    ∧ (∀ (i : SourceId) (sequence skew quality : Nat) (payload : List Byte) (s : State),
        let x := s.source i
        x.state = .phasing →
        exec (.image i sequence skew quality payload) s
          = exec (.image i sequence skew quality payload) (s.setSource i
              { x with
                state := .receiving, positions := []
                reference := if 4 ≤ x.positions.length then medianColumn x.positions else 0
                unphased := decide (x.positions.length < 4) }))
    ∧ (∀ (i : SourceId) (sequence skew quality : Nat) (payload : List Byte) (s : State), s.atRest →
        let x := s.source i
        x.state = .idle ∨ x.state = .draining ∨ x.state = .discarding →
        exec (.image i sequence skew quality payload) s = .next (s.setSource i
          { x with
            silenceTimer := some 2000, checkFailures := 0
            counters := { x.counters with received := stickyNext 65535 x.counters.received } }))
    ∧ ∀ (d : DrumClass) (x : Int), -(drumWidth d : Int) < x → x < drumWidth d →
        let o := foldOffset (drumWidth d) x
        (o = x ∨ o = x + drumWidth d ∨ o = x - drumWidth d)
          ∧ -(drumWidth d : Int) < 2 * o ∧ 2 * o ≤ drumWidth d

/-- A line of the wrong width or with a skew beyond it is counted, logged and tracked by its sequence, and not pushed; the
eighth rejection in a row ends the stream with a marker of end "overrun" (R31, R33, R40). That a line which fails both tests
is logged with the detail of the width is the model's choice (log 40). -/
def Obligations.ImageOutsideTheStreamIsRejected : Prop :=
  ∀ (i : SourceId) (sequence skew quality detail : Nat) (payload : List Byte) (b : StreamBinding) (s : State), s.atRest →
    let x := s.source i
    x.state = .receiving ∨ x.state = .faded → x.binding = some b →
    (payload.length ≠ drumBytes b.geometry.drum ∧ detail = 1
      ∨ payload.length = drumBytes b.geometry.drum ∧ drumWidth b.geometry.drum ≤ skew ∧ detail = 2) →
    let taken : Source :=
      { x with
        silenceTimer := some 2000, checkFailures := 0, rejections := x.rejections + 1
        counters :=
          { x.counters with
            received := stickyNext 65535 x.counters.received, rejected := stickyNext 65535 x.counters.rejected }
        firstSeq := some (x.firstSeq.getD sequence)
        expectedSeq := x.expectedAfter sequence
        misses := if x.state = .receiving then 0 else x.misses
        linePeriodTimer := some (arrivalMs b.geometry.rate)
        fadeTimer := if x.state = .faded then some (x.config.fadeLimit * 1000) else x.fadeTimer }
    let report : ErrorReport :=
      { kind := .lineRejected, origin := .source i, frame := some b.frame, row := none, pass := some b.pass
        detail := detail }
    (x.rejections < 7 →
        exec (.image i sequence skew quality payload) s = .next ((s.setSource i taken).logError report))
      ∧ (x.rejections = 7 →
        exec (.image i sequence skew quality payload) s = .next ((s.setSource i
          { taken with
            state := .draining, ring := x.ring ++ [.marker .overrun]
            hysteresis := if 11 ≤ x.ring.length then true else x.hysteresis
            linePeriodTimer := none, fadeTimer := none }).logError report))

/-- STOP ends a stream normally, DROP fades it, RESUME brings it back, and STOP and DROP end a discarded stream; where they have
no such effect, and always for IDLE, the record only restarts the silence timer (R22, R28, R37 to R39, R42). -/
def Obligations.StopDropResumeAndIdleAreTaken : Prop :=
  ∀ (i : SourceId) (s : State), s.atRest →
    let x := s.source i
    let good : Source := { x with silenceTimer := some 2000, checkFailures := 0 }
    let faded : Source := { good with state := .faded, fadeTimer := some (x.config.fadeLimit * 1000) }
    (x.state = .phasing ∨ x.state = .receiving ∨ x.state = .faded →
        exec (.stop i) s = .next (s.setSource i
          { good with
            state := .draining, ring := x.ring ++ [.marker .normal]
            hysteresis := if 11 ≤ x.ring.length then true else x.hysteresis
            linePeriodTimer := none, fadeTimer := none }))
      ∧ (x.state = .discarding → x.held = none →
        exec (.stop i) s = .next (s.setSource i { good with state := .idle })
          ∧ exec (.drop i) s = .next (s.setSource i { good with state := .idle }))
      ∧ (x.state = .idle ∨ x.state = .draining →
        exec (.stop i) s = .next (s.setSource i good) ∧ exec (.drop i) s = .next (s.setSource i good))
      ∧ (x.state = .receiving →
        exec (.drop i) s = .next ((s.setSource i faded).raise (.source i) (.fade (x.binding.map StreamBinding.frame) false)))
      ∧ (x.state = .phasing →
        exec (.drop i) s = .next ((s.setSource i
          { faded with
            positions := [], reference := if 4 ≤ x.positions.length then medianColumn x.positions else 0
            unphased := decide (x.positions.length < 4) }).raise
              (.source i) (.fade (x.binding.map StreamBinding.frame) false)))
      ∧ (x.state = .faded →
        exec (.drop i) s = .next (s.setSource i good)
          ∧ exec (.resume i) s = .next (s.setSource i
              { good with state := .receiving, fadeTimer := none, misses := 0 }))
      ∧ (x.state ≠ .faded → x.state ≠ .linkDown → exec (.resume i) s = .next (s.setSource i good))
      ∧ (x.state ≠ .linkDown → exec (.idle i) s = .next (s.setSource i good))

/-- A failed check is counted and logged, and the fourth in a row, like 2 s of silence, takes the link down: lines and held
START go, and a bound source's ring holds a marker (R23, R44). In LINK_DOWN a failed check clears the recovery count, and
the third good record in a row, of any kind, brings the source to IDLE (R45). -/
def Obligations.LinkIsLostAndRecovers : Prop :=
  ∀ (i : SourceId) (s : State),
    let x := s.source i
    let ring : List RingRecord :=
      if x.binding.isSome = true ∧ x.ring.all (fun r => !r.isMarker) = true then [.marker .lost]
      else x.ring.filter RingRecord.isMarker
    let down : Source :=
      { x with
        state := .linkDown, silenceTimer := none, positions := [], held := none, recovery := 0, ring := ring
        head := .ready, hysteresis := if ring.length ≤ 4 then false else x.hysteresis
        linePeriodTimer := none, fadeTimer := none }
    let check (cause : CheckCause) : ErrorReport :=
      { kind := .linkCheck, origin := .source i, frame := x.binding.map StreamBinding.frame, row := none, pass := none
        detail := match cause with | .checkWord => 1 | .form => 2 }
    let lost (detail : Nat) : ErrorReport :=
      { kind := .linkLost, origin := .source i, frame := x.binding.map StreamBinding.frame, row := none, pass := none
        detail := detail }
    (∀ cause, x.state ≠ .linkDown → x.checkFailures < 3 →
        exec (.failedCheckRecord i cause) s
          = .next ((s.setSource i { x with checkFailures := x.checkFailures + 1 }).logError (check cause)))
      ∧ (∀ cause, x.state ≠ .linkDown → x.checkFailures = 3 →
        exec (.failedCheckRecord i cause) s
          = .next (((s.setSource i { down with checkFailures := 4 }).logError (check cause)).logError (lost 2)))
      ∧ (∀ cause, x.state = .linkDown →
        exec (.failedCheckRecord i cause) s = .next (s.setSource i { x with recovery := 0 }))
      ∧ (x.silenceTimer.isSome = true → x.state ≠ .linkDown →
        exec (.linkSilenceExpiry i) s = .next ((s.setSource i down).logError (lost 1)))
      ∧ (∀ c, recordSource c = some i → s.atRest → x.state = .linkDown → x.held = none → x.recovery < 2 →
        exec c s = .next (s.setSource i { x with recovery := x.recovery + 1 }))
      ∧ ∀ c, recordSource c = some i → s.atRest → x.state = .linkDown → x.held = none → x.recovery = 2 →
        exec c s = .next (s.setSource i
          { x with state := .idle, recovery := 0, checkFailures := 0, silenceTimer := some 2000 })

/-- A silent line period in RECEIVING marks the row that was due MISSED where it is EMPTY and not in flight, counts the miss,
raises GAP at the first, and at the missed-line limit fades the stream (R35, R37, R54, R68); in FADED it only moves the
expected sequence on (R36). The fade timer ends the stream with a marker of end "lost" (R38). That the line-period timer runs
for one line period after the expiry that enters FADED is the model's reading (log 13). -/
def Obligations.SilentLinesAreMissedAndFadesEnd : Prop :=
  (∀ (i : SourceId) (b : StreamBinding) (k first expected : Nat) (s : State),
      let x := s.source i
      x.linePeriodTimer = some k → x.binding = some b → x.firstSeq = some first → x.expectedSeq = some expected →
      (x.state = .receiving →
        ∃ t, exec (.linePeriodExpiry i) s = .next t
          ∧ t = { s with frames := t.frames, sources := t.sources, clients := t.clients }
          ∧ (∀ j, j ≠ i → t.source j = s.source j)
          ∧ t.source i =
              { x with
                expectedSeq := some ((expected + 1) % 4096), misses := stickyNext 255 x.misses
                linePeriodTimer := some (periodMs b.geometry.rate)
                state := if x.config.missedLimit ≤ stickyNext 255 x.misses then .faded else .receiving
                fadeTimer :=
                  if x.config.missedLimit ≤ stickyNext 255 x.misses then some (x.config.fadeLimit * 1000)
                  else x.fadeTimer }
          ∧ (∀ f, f ≠ b.frame → t.frame f = s.frame f)
          ∧ (∀ row e, rowOfSequence b.geometry first expected = some row → s.rowEntry b.frame row = some e →
              e.state = .empty → e.inFlight = .no →
              t.frame b.frame = { s.frame b.frame with
                missed := (s.frame b.frame).missed + 1
                rowMap := (s.frame b.frame).rowMap.set row { e with state := .missed } })
          ∧ (∀ row e, rowOfSequence b.geometry first expected = some row → s.rowEntry b.frame row = some e →
              e.state ≠ .empty ∨ e.inFlight ≠ .no → t.frame b.frame = s.frame b.frame)
          ∧ (rowOfSequence b.geometry first expected = none → t.frame b.frame = s.frame b.frame)
          ∧ (x.misses ≠ 0 → stickyNext 255 x.misses < x.config.missedLimit → t.clients = s.clients)
          ∧ ∀ n, (x.misses = 0 → (s.client n).levels[(5 : Fin 16)] ≠ 0 →
                ∃ p ∈ (t.client n).pendingSet, p.origin = .source i ∧ p.detail = .gap b.frame expected)
              ∧ (x.config.missedLimit ≤ stickyNext 255 x.misses → (s.client n).levels[(6 : Fin 16)] ≠ 0 →
                ∃ p ∈ (t.client n).pendingSet, p.origin = .source i ∧ p.detail = .fade (some b.frame) true))
        ∧ (x.state = .faded →
          exec (.linePeriodExpiry i) s = .next (s.setSource i
            { x with
              expectedSeq := some ((expected + 1) % 4096), linePeriodTimer := some (periodMs b.geometry.rate) })))
    ∧ (∀ (i : SourceId) (s : State),
        let x := s.source i
        x.state = .faded → x.fadeTimer.isSome = true →
        exec (.fadeExpiry i) s = .next (s.setSource i
          { x with
            state := .draining, ring := x.ring ++ [.marker .lost]
            hysteresis := if 11 ≤ x.ring.length then true else x.hysteresis
            linePeriodTimer := none, fadeTimer := none }))
    ∧ ∀ (g : Geometry) (first sequence : Nat), first < 4096 → sequence < 4096 →
        rowOfSequence g first sequence =
          let d := (((sequence : Int) - first) % 4096).toNat
          if d < g.rows then some (match g.direction with | .down => d | .up => g.rows - 1 - d) else none

/-- SOURCE_CONFIG stores the values given, each in its range, together, and clears the counters if asked; otherwise nothing
changes (R46). That an ad hoc capture byte above 1 is BAD_REQUEST is the model's reading (log 7), and that the count of PHASE
records dropped in DISCARDING is cleared with the counters its choice (log 37). -/
def Obligations.SourceConfigStoresTheValuesGiven : Prop :=
  ∀ (n : ClientId) (tag : Nat) (a : SourceConfigArgs) (s : State), s.accepts n [.system] →
    (∀ i : SourceId, a.source = i.val → sourceArgsAllowed a →
        exec (.sourceConfig n tag a) s = .next ((s.setSource i
          { s.source i with
            config :=
              { phasingCount := a.phasingCount.getD (s.source i).config.phasingCount
                skewLimit := a.skewLimit.getD (s.source i).config.skewLimit
                trackWindow := a.trackWindow.getD (s.source i).config.trackWindow
                missedLimit := a.missedLimit.getD (s.source i).config.missedLimit
                fadeLimit := a.fadeLimit.getD (s.source i).config.fadeLimit
                adHoc := if a.adHoc = some 1 then true else if a.adHoc = some 0 then false
                  else (s.source i).config.adHoc }
            counters :=
              if a.clearCounters then { received := 0, placed := 0, mergedOut := 0, rejected := 0, overrun := 0, phases := 0 }
              else (s.source i).counters }).withAnswer n tag .ok []))
      ∧ (3 ≤ a.source ∨ ¬ sourceArgsAllowed a →
        exec (.sourceConfig n tag a) s = .next (s.withAnswer n tag .badRequest []))

/-- STORE_CONFIG stores the values given, each in its range, together, or changes nothing; only a port of class SYSTEM may;
STORE_CLEAR and PORT_RESET keep the configuration and power-on returns it to the defaults (R70). -/
def Obligations.StoreConfigStoresTheValuesGiven : Prop :=
  (∀ (n : ClientId) (tag : Nat) (a : StoreConfigArgs) (s : State), s.accepts n [.system] →
      (storeArgsAllowed a →
          exec (.storeConfig n tag a) s = .next ({ s with storeConfig :=
            { firmThreshold := a.firmThreshold.getD s.storeConfig.firmThreshold
              replaceMargin := a.replaceMargin.getD s.storeConfig.replaceMargin
              settleTime := a.settleTime.getD s.storeConfig.settleTime
              completePerMille := a.completePerMille.getD s.storeConfig.completePerMille
              seamAcceptLimit := a.seamAcceptLimit.getD s.storeConfig.seamAcceptLimit } }.withAnswer n tag .ok []))
        ∧ (¬ storeArgsAllowed a → exec (.storeConfig n tag a) s = .next (s.withAnswer n tag .badRequest [])))
    ∧ (∀ (n : ClientId) (tag : Nat) (a : StoreConfigArgs) (s : State),
        (s.port n).state = .idle ∨ (s.port n).state = .done → (s.port n).holds [.system] = false →
        exec (.storeConfig n tag a) s = .next (s.withAnswer n tag .denied []))
    ∧ (∀ (n : ClientId) (tag : Nat) (s t : State),
        exec (.storeClear n tag) s = .next t ∨ exec (.portReset n tag) s = .next t → t.storeConfig = s.storeConfig)
    ∧ ∀ (cfg0 cfg1 cfg2 : Byte) (s t : State), exec (.reset cfg0 cfg1 cfg2) s = .next t →
        t.storeConfig = { firmThreshold := 200, replaceMargin := 16, settleTime := 60, completePerMille := 980
                          seamAcceptLimit := 3 }

/-! ### The placement engine (chapter 3) -/

/-- A line's rotation is its skew less its stamped reference, folded to half the width either way, and is clamped to the skew
limit with its sign; the row written holds in column c the line's column c plus reference and rotation, modulo the width
(R55). Its effective quality is its link quality less 32 for UNPHASED, 64 for SKEWED and 48 for FADED, floored at 0; it
carries the flags its record carries, and SKEWED when its rotation is clamped; its flags are recorded with it (R56). -/
def Obligations.EffectiveQualityLosesThePenalties : Prop :=
  (∀ (d : DrumClass) (r : LineRecord), r.skew < drumWidth d → r.reference < drumWidth d →
      let o := (r.skew : Int) - r.reference
      (rawRotation d r = o ∨ rawRotation d r = o + drumWidth d ∨ rawRotation d r = o - drumWidth d)
        ∧ -(drumWidth d : Int) < 2 * rawRotation d r ∧ 2 * rawRotation d r ≤ drumWidth d)
    ∧ (∀ (p : List Byte) (k : Int), (turnPayload p k).length = p.length
        ∧ ∀ c, c < 2 * p.length → pixelAt (turnPayload p k) c = pixelAt p (((c : Int) + k) % (2 * p.length : Nat)).toNat)
    ∧ ∀ (i : SourceId) (pass skewLimit : Nat) (d : DrumClass) (r : LineRecord),
      let l := lineInfoOf i pass skewLimit d r
      l.source = i ∧ l.pass = pass
        ∧ ((rawRotation d r).natAbs ≤ skewLimit → l.rotation = rawRotation d r ∧ l.flags.skewed = false)
        ∧ (skewLimit < (rawRotation d r).natAbs → l.flags.skewed = true
            ∧ l.rotation = (if 0 < rawRotation d r then (skewLimit : Int) else -(skewLimit : Int)))
        ∧ l.flags.unphased = r.unphased ∧ l.flags.faded = r.faded
        ∧ (l.quality : Int) =
            max 0 ((r.quality : Int) - (if r.unphased then 32 else 0) - (if l.flags.skewed then 64 else 0)
              - (if r.faded then 48 else 0))

/-- PE takes the first ready head from its pointer and moves the pointer past it. A line whose row is in flight stalls; one
outside the map is rejected; one that an EMPTY, MISSED or DAMAGED row or a PROVISIONAL row at least the replace margin worse
takes is posted, or waits for a place; any other is merged-out (R52 to R59). The eighth rejection in a row of a stream in
progress ends it with a marker of end "overrun"; of one that is not, it is only counted (R40). -/
def Obligations.HeadTakeDecidesTheLine : Prop :=
  ∀ (i : SourceId) (r : LineRecord) (rest : List RingRecord) (b : StreamBinding) (first : Nat) (s : State), s.atRest →
    s.headDue i →
    let x := s.source i
    x.ring = .line r :: rest → x.binding = some b → x.firstSeq = some first →
    let released := if rest.length ≤ 4 then false else x.hysteresis
    let l := lineInfoOf i b.pass x.config.skewLimit b.geometry.drum r
    let moved : State := { s with pointer := i + 1 }
    let streaming : Prop := x.state = .phasing ∨ x.state = .receiving ∨ x.state = .faded
    let counted : Source :=
      { x with
        ring := rest, hysteresis := released, rejections := stickyNext 8 x.rejections
        counters := { x.counters with rejected := stickyNext 65535 x.counters.rejected } }
    let report : ErrorReport :=
      { kind := .lineRejected, origin := .source i, frame := some b.frame, row := none, pass := some b.pass, detail := 3 }
    (rowOfSequence b.geometry first r.sequence = none →
        (x.rejections < 7 ∨ ¬ streaming → exec .headTake s = .next ((moved.setSource i counted).logError report))
          ∧ (x.rejections = 7 → streaming →
            exec .headTake s = .next ((moved.setSource i
              { counted with
                state := .draining, ring := rest ++ [.marker .overrun], linePeriodTimer := none, fadeTimer := none
                hysteresis := if 11 ≤ rest.length then true else released }).logError report)))
      ∧ ∀ (row : Nat) (e : RowEntry), rowOfSequence b.geometry first r.sequence = some row →
          s.rowEntry b.frame row = some e →
          (e.inFlight ≠ .no →
            exec .headTake s = .next (moved.setSource i { x with head := .stalled b.frame row }))
          ∧ (e.inFlight = .no → (∃ h, e.state = .firm h ∨ e.state = .provisional h
                ∧ l.quality < h.quality + s.storeConfig.replaceMargin) →
            exec .headTake s = .next (moved.setSource i
              { x with
                ring := rest, hysteresis := released, rejections := 0
                counters := { x.counters with mergedOut := stickyNext 65535 x.counters.mergedOut } }))
          ∧ (e.inFlight = .no →
            (e.state = .empty ∨ e.state = .missed ∨ (∃ p, e.state = .damaged p)
              ∨ ∃ h, e.state = .provisional h ∧ h.quality + s.storeConfig.replaceMargin ≤ l.quality) →
            (8 ≤ s.writeQueue.length → exec .headTake s = .next (moved.setSource i { x with head := .waiting }))
            ∧ (s.writeQueue.length < 8 →
              (∀ h, e.state = .provisional h → h.pass < (s.frame b.frame).pass → e.preserved = none → e.lost = false →
                (s.frame b.frame).view = none) →
              exec .headTake s = .next
                (((moved.post
                    { kind := .rowWrite (turnPayload r.payload ((r.reference : Int) + l.rotation)), slot := b.frame
                      row := row, pass := b.pass, drum := b.geometry.drum, issued := none, stale := false }).setFrame
                  b.frame { s.frame b.frame with
                    rowMap := (s.frame b.frame).rowMap.set row { e with inFlight := .write (some l) } }).setSource i
                  { x with
                    ring := rest, hysteresis := released, rejections := 0
                    counters := { x.counters with placed := stickyNext 65535 x.counters.placed } })))

/-- A line that would take a PROVISIONAL row of an earlier pass, neither preserved nor lost, from an OPEN view has the row
copied into the lowest free pool row first, and stalls on it (R64, R93); with the pool empty the view is TORN (R94), and
from a TORN view the row is marked lost and the line is posted. -/
def Obligations.HeadTakePreservesTheOldRow : Prop :=
  ∀ (i : SourceId) (r : LineRecord) (rest : List RingRecord) (b : StreamBinding) (first row : Nat) (e : RowEntry)
    (h : LineInfo) (v : ViewId) (y : View) (s : State), s.atRest → s.headDue i →
    let x := s.source i
    let f := b.frame
    x.ring = .line r :: rest → x.binding = some b → x.firstSeq = some first →
    rowOfSequence b.geometry first r.sequence = some row → s.rowEntry f row = some e →
    e.inFlight = .no → e.state = .provisional h → h.pass < (s.frame f).pass → e.preserved = none → e.lost = false →
    (s.frame f).view = some v → s.view v = some y → s.writeQueue.length < 8 →
    let l := lineInfoOf i b.pass x.config.skewLimit b.geometry.drum r
    h.quality + s.storeConfig.replaceMargin ≤ l.quality →
    let moved : State := { s with pointer := i + 1 }
    let posted (t : State) : State :=
      ((t.post
          { kind := .rowWrite (turnPayload r.payload ((r.reference : Int) + l.rotation)), slot := f, row := row
            pass := b.pass, drum := b.geometry.drum, issued := none, stale := false }).setFrame f
        { s.frame f with
          rowMap := (s.frame f).rowMap.set row { e with lost := true, inFlight := .write (some l) } }).setSource i
        { x with
          ring := rest, hysteresis := if rest.length ≤ 4 then false else x.hysteresis, rejections := 0
          counters := { x.counters with placed := stickyNext 65535 x.counters.placed } }
    (∀ p, y.torn = false → s.poolRow p = none → (∀ q, q < p → s.poolRow q ≠ none) →
        exec .headTake s = .next
          (((((moved.post
              { kind := .rowCopy p h, slot := f, row := row, pass := (s.frame f).pass, drum := b.geometry.drum
                issued := none, stale := false }).setPoolRow p (some { view := v, frame := f, row := row })).setView v
            (some { y with held := y.held + 1 })).setFrame f
            { s.frame f with rowMap := (s.frame f).rowMap.set row { e with inFlight := .copy } }).setSource i
            { x with head := .stalled f row }))
      ∧ (y.torn = false → (∀ q, s.poolRow q ≠ none) →
        exec .headTake s = .next
          (posted (((moved.setView v (some { y with torn := true })).raise (.frame f) (.viewTorn v row)).logError
            { kind := .shadowExhausted, origin := .frame f, frame := some f, row := some row
              pass := some (s.frame f).pass, detail := v.val })))
      ∧ (y.torn = true → exec .headTake s = .next (posted moved))

/-- PE takes a STOP marker: the source detaches and raises SOURCE_END, a DRAINING one becoming IDLE; the frame whose last
joined source it was becomes SETTLING for the settle time, its pending mark set (R41, R53, R80). A START held by a source
that is then IDLE is taken as if it arrived there and then, but for the silence timer and the check failures, which a held
START has set when it came (R22, R26). -/
def Obligations.HeadTakeDetachesAtTheMarker : Prop :=
  ∀ (i : SourceId) (k : StopEnd) (b : StreamBinding) (s : State), s.atRest → s.headDue i →
    let x := s.source i
    let f := b.frame
    x.ring = [.marker k] → x.binding = some b → (s.frame f).state = .receiving →
    let joined := setMember (s.frame f).joined i false
    let left (frame : Frame) : State :=
      ((({ s with pointer := i + 1 } : State).setFrame f frame).setSource i
        { x with
          ring := [], hysteresis := false, binding := none, firstSeq := none, expectedSeq := none
          linePeriodTimer := none, fadeTimer := none, held := none
          state := if x.state = .draining then SourceState.idle else x.state }).raise (.source i) (.sourceEnd f b.pass k)
    let after (u : State) : Prop :=
      (x.held = none → exec .headTake s = .next u)
        ∧ ∀ h v, x.held = some h → x.state = .draining ∨ x.state = .idle →
          exec (.start i h.frequency h.drum h.rate) u = .next v →
          exec .headTake s = .next (v.setSource i
            { v.source i with silenceTimer := x.silenceTimer, checkFailures := x.checkFailures })
    ((∃ j : SourceId, joined[j] = true) → after (left { s.frame f with joined := joined }))
      ∧ ((∀ j : SourceId, joined[j] = false) → after (left
          { s.frame f with
            joined := joined, state := .settling, pendingMark := true
            settleTimer := some (s.storeConfig.settleTime * 1000), stamp := next16 (s.frame f).stamp }))

/-- At the settle expiry FLU judges the pass by its coverage, records the time, advances the stamp once, raises PASS_SETTLED
where it is owed and clears both marks; a view with no cursor attached is released, and one with a cursor is kept (R81,
R84). A GATHERING group the frame is bound in becomes JOINING where every section is settled with it, its NONE seams queued,
or WAITING where the queue is full; where no seam lacks a result it becomes JOINED in the same event, with MOSAIC_JOINED
(R101, R102, R106). -/
def Obligations.SettleExpiryJudgesThePass : Prop :=
  ∀ (f : FrameId) (g : Geometry) (k : Nat) (s : State),
    let x := s.frame f
    x.state = .settling → x.settleTimer = some k → x.geometry = some g →
    let complete := decide (s.storeConfig.completePerMille * g.rows ≤ x.coverage * 1000)
    let settled : Frame :=
      { x with
        state := if complete then .complete else .partialOnly
        settledAt := some (if s.clock.isSet then (s.clock.day, s.clock.second) else (0, 0)), settleTimer := none
        stamp := next16 x.stamp, enable := false, pendingMark := false }
    (x.mosaic = none → x.view = none →
        exec (.settleExpiry f) s = .next
          (if x.enable then (s.setFrame f settled).raise (.frame f) (.passSettled x.pass complete)
          else s.setFrame f settled))
      ∧ ∃ t, exec (.settleExpiry f) s = .next t
          ∧ t.frame f = { settled with view := (t.frame f).view, pins := (t.frame f).pins, rowMap := (t.frame f).rowMap }
          ∧ (t.frame f).rowMap.map RowEntry.state = x.rowMap.map RowEntry.state
          ∧ (∀ n, x.enable = true → (s.client n).levels[(1 : Fin 16)] ≠ 0 →
              ∃ p ∈ (t.client n).pendingSet, p.origin = .frame f ∧ p.detail = .passSettled x.pass complete)
          ∧ (∀ v y, x.view = some v → s.view v = some y →
              (y.cursors ≠ 0 → (t.frame f).view = some v ∧ t.view v = some y ∧ t.pool = s.pool)
                ∧ (y.cursors = 0 → (t.frame f).view = none ∧ t.view v = none
                    ∧ (∀ p h, s.poolRow p = some h → h.view = v → t.poolRow p = none)
                    ∧ ∀ e ∈ (t.frame f).rowMap, e.preserved = none ∧ e.lost = false))
          ∧ ∀ h j, x.mosaic = some (h, j) →
            let sections := (s.group h).sections
            let ready := (s.group h).state = .gathering ∧ ∀ y ∈ sections, y.frame = some f ∨ s.settledIn y
            let recorded := ∀ k m, s.seam h k = some m → m.state = .found ∨ m.state = .weak
            let fresh := (List.range sections.length).filter
              (fun k => (s.seam h k).any (fun m => decide (m.state = .none)))
            let taken := fresh.take (8 - s.seamQueue.length)
            (¬ ready → t.groups = s.groups ∧ t.seamQueue = s.seamQueue)
              ∧ (∀ g, g ≠ h → t.group g = s.group g)
              ∧ (ready → recorded →
                t.group h = { s.group h with state := .joined, stamp := next16 (s.group h).stamp }
                  ∧ t.seamQueue = s.seamQueue
                  ∧ ∀ n, (s.client n).levels[(10 : Fin 16)] ≠ 0 → ∃ p ∈ (t.client n).pendingSet, p.origin = .group h
                      ∧ p.detail = .mosaicJoined (s.group h).height
                        (sections.countP (fun y => y.seam.any (fun m => decide (m.state = .weak)))))
              ∧ (ready → ¬ recorded →
                t.group h = { s.group h with
                    state := .joining, stamp := next16 (s.group h).stamp, sections := (t.group h).sections }
                  ∧ t.seamQueue = s.seamQueue ++ taken.map (fun k => (h, k))
                  ∧ (t.group h).sections.map (fun y => { y with seam := none })
                      = sections.map (fun y => { y with seam := none })
                  ∧ ∀ k, t.seam h k = (s.seam h k).map (fun m => if m.state ≠ .none then m
                      else { m with state := if k ∈ taken then .queued else .waiting }))

/-! ### The picture memory controller (chapter 6) -/

/-- The arbiter grants the oldest UNISSUED operation of the write class; failing that the first cursor with a read waiting in
cyclic order from the read pointer, which moves past it; failing that the seam engine's read. The pointer names C0 at
power-on, and STORE_CLEAR and PORT_RESET leave it (R117, R118). That the interface is free whenever the command comes is the
model's choice (log 11). -/
def Obligations.ArbiterGrantsByClassAndPointer : Prop :=
  (∀ (before after : List WriteOp) (o : WriteOp) (s : State), s.writeQueue = before ++ o :: after →
      (∀ w ∈ before, w.issued.isSome = true) → o.issued = none →
      exec .arbiterGrant s = .next
        { s with
          writeQueue := before ++ { o with issued := some s.issueCount } :: after, issueCount := s.issueCount + 1 })
    ∧ (∀ (c : CursorId) (k : Nat) (r : ReadRequest) (s : State), (∀ w ∈ s.writeQueue, w.issued.isSome = true) →
        k < 6 → c.val = (s.readPointer.val + k) % 6 → s.holder (.cursor c) = some r → r.issued = none →
        (∀ d : CursorId, ∀ m < k, d.val = (s.readPointer.val + m) % 6 →
          ∀ q, s.holder (.cursor d) = some q → q.issued ≠ none) →
        exec .arbiterGrant s = .next
          { s.setHolder (.cursor c) (some { r with issued := some s.issueCount }) with
            issueCount := s.issueCount + 1, readPointer := c + 1 })
    ∧ (∀ (r : ReadRequest) (s : State), (∀ w ∈ s.writeQueue, w.issued.isSome = true) →
        (∀ c q, s.holder (.cursor c) = some q → q.issued ≠ none) → s.holder .seam = some r → r.issued = none →
        exec .arbiterGrant s = .next
          { s.setHolder .seam (some { r with issued := some s.issueCount }) with issueCount := s.issueCount + 1 })
    ∧ (∀ s : State, (∀ w ∈ s.writeQueue, w.issued.isSome = true) →
        (∀ h q, s.holder h = some q → q.issued ≠ none) → exec .arbiterGrant s = .next s)
    ∧ (∀ (cfg0 cfg1 cfg2 : Byte) (s t : State), exec (.reset cfg0 cfg1 cfg2) s = .next t → t.readPointer = 0)
    ∧ ∀ (n : ClientId) (tag : Nat) (s t : State),
        exec (.storeClear n tag) s = .next t ∨ exec (.portReset n tag) s = .next t → t.readPointer = s.readPointer

/-- A confirmed write is in its slot record with its check word, over the slot and row identity (R114, R115, R120; the
record's layout log 8), gives its place back and readies the waiting heads (R116, R51); if it is not stale its row becomes
FIRM or PROVISIONAL by the firm threshold, with the pending line's fields (R60), and if it is stale only leaves flight
(R67). Every other byte of memory is as it was. That memory then answers no earlier operation is the model's reading of R117
(log 9). -/
def Obligations.ConfirmedWriteIsStoredAndGraded : Prop :=
  ∀ (n : Nat) (o : WriteOp) (payload : List Byte) (e : RowEntry) (s : State),
    s.issuedOp n = some o → s.answerFloor ≤ n → o.kind = .rowWrite payload → s.rowEntry o.slot o.row = some e →
    let record := payload
      ++ checkBytes (crc16 (byteOf o.slot.val :: beBytes 2 o.row ++ payload))
    let base := o.slot.val * 2097152 + o.row * 1024
    ∃ t, exec (.writeConfirmed n) s = .next t
      ∧ t = { s with
          memory := t.memory, writeQueue := t.writeQueue, answerFloor := n + 1, late := t.late, frames := t.frames
          sources := t.sources }
      ∧ (∀ a, t.memoryByte a =
          if base ≤ a ∧ a < base + record.length then record.getD (a - base) 0#8 else s.memoryByte a)
      ∧ t.writeQueue = s.writeQueue.filter (fun w => w.issued != some n)
      ∧ (∀ i, t.source i = { s.source i with
          head := if (s.source i).head = .waiting ∨ (s.source i).head = .stalled o.slot o.row then .ready
            else (s.source i).head })
      ∧ (∀ f, f ≠ o.slot → t.frame f = s.frame f)
      ∧ (o.stale = true → t.frame o.slot =
          { s.frame o.slot with rowMap := (s.frame o.slot).rowMap.set o.row { e with inFlight := .no } })
      ∧ ∀ l, o.stale = false → e.inFlight = .write (some l) →
          (t.frame o.slot).rowMap = (s.frame o.slot).rowMap.set o.row
            { e with
              inFlight := .no
              state := if s.storeConfig.firmThreshold ≤ l.quality then .firm l else .provisional l }
          ∧ t.frame o.slot =
              { s.frame o.slot with
                rowMap := (t.frame o.slot).rowMap
                coverage := (s.frame o.slot).coverage + (if e.state.isFilled then 0 else 1)
                missed := (s.frame o.slot).missed - (if e.state = .missed then 1 else 0)
                damaged := (s.frame o.slot).damaged - (if e.state.isDamaged then 1 else 0) }

/-- A write that memory refuses, or does not confirm in time, makes its row DAMAGED, gives its place back, stores nothing in
memory and logs WRITE_FAILED or WRITE_TIMEOUT (R61, R119, R127). Folded or appended, the error marks the frame; dropped, the
queue being full, it leaves the mark clear (R129, R131, R132). That memory is unchanged by a write that has not been confirmed is the model's choice (log 10). -/
def Obligations.FailedWriteDamagesItsRow : Prop :=
  ∀ (n : Nat) (o : WriteOp) (payload : List Byte) (e : RowEntry) (kind : ErrorKind) (c : Instr) (s : State), s.atRest →
    s.issuedOp n = some o → o.kind = .rowWrite payload → o.stale = false → s.rowEntry o.slot o.row = some e →
    (c = .writeFailed n ∧ kind = .writeFailed ∧ s.answerFloor ≤ n ∨ c = .confirmationTimeout n ∧ kind = .writeTimeout) →
    ((s.frame o.slot).state.canFault = true → (s.frame o.slot).memoryError = false) →
    ∃ t, exec c s = .next t ∧ t.memory = s.memory
      ∧ t.writeQueue = s.writeQueue.filter (fun w => w.issued != some n)
      ∧ (t.frame o.slot).rowMap = (s.frame o.slot).rowMap.set o.row
          { e with inFlight := .no, state := .damaged o.pass }
      ∧ (t.frame o.slot).state = (s.frame o.slot).state ∧ (t.frame o.slot).stamp = (s.frame o.slot).stamp
      ∧ (t.frame o.slot).damaged = (s.frame o.slot).damaged + (if e.state.isDamaged then 0 else 1)
      ∧ s.filesMemoryError t kind o.slot o.row o.pass 1
      ∧ ∀ i, (s.source i).head = .stalled o.slot o.row → (t.source i).head = .ready

/-- A second memory error on a marked frame that is RECEIVING, SETTLING, COMPLETE or PARTIAL faults it, whichever write, copy or
read of a slot or pool row fails, by a refusal, a wrong check word or no answer in time. The error and a FRAME_FAULTED are
filed. Marks and joined sources go, its sources leave their streams, its view, its cursors and their commands with it; the
frame keeps pass, key, annotation and map, its row as the failure left it. FRAME_FAULTED is raised (R43, R79, R133, R154). The
model's readings: the order of memory's answers (log 9), that the command carries what came back (10), a failed pool row's pass
(21). -/
def Obligations.SecondMemoryErrorFaultsTheFrame : Prop :=
  ∀ (c : Instr) (f : FrameId) (row : Nat) (e : RowEntry) (left : RowState) (kind : ErrorKind) (pass detail code : Nat)
    (s : State), s.atRest → s.rowEntry f row = some e → s.memoryFails c f row e left kind pass detail →
    (kind = .writeFailed ∧ code = 6 ∨ kind = .writeTimeout ∧ code = 7 ∨ kind = .readCorrupt ∧ code = 8) →
    (s.frame f).state.canFault = true → (s.frame f).memoryError = true → (∀ i, (s.source i).held = none) →
    let filed : State :=
      (s.logError { kind := kind, origin := .memory, frame := some f, row := some row, pass := some pass
                    detail := detail }).logError
        { kind := .frameFaulted, origin := .frame f, frame := some f, row := some row, pass := some (s.frame f).pass
          detail := code }
    let onFrame (k : CursorFields) : Prop := k.attachment = .current f ∨ k.attachment = .previous f
    ∃ t, exec c s = .next t ∧ t.memory = s.memory
      ∧ t.frame f = { s.frame f with
          state := .faulted, stamp := next16 (s.frame f).stamp, enable := false, pendingMark := false
          settleTimer := none, joined := .replicate 3 false, view := none, mosaic := none, pins := (t.frame f).pins
          rowMap := (t.frame f).rowMap, coverage := (t.frame f).coverage, missed := (t.frame f).missed
          damaged := (t.frame f).damaged }
      ∧ (t.frame f).pins.explicit = (s.frame f).pins.explicit
      ∧ (t.frame f).rowMap.map RowEntry.state = ((s.frame f).rowMap.map RowEntry.state).set row left
      ∧ (∀ v, (s.frame f).view = some v → t.view v = none
          ∧ ∀ p h, s.poolRow p = some h → h.view = v → t.poolRow p = none)
      ∧ (∀ i b, (s.frame f).joined[i] = true → (s.source i).binding = some b →
          (t.source i).binding = none ∧ (t.source i).ring = [] ∧ (t.source i).head = .ready
            ∧ (t.source i).state =
              (if (s.source i).state.inStream then .discarding
                else if (s.source i).state = .draining then .idle else (s.source i).state)
            ∧ ∀ m, (s.client m).levels[(7 : Fin 16)] ≠ 0 →
                ∃ p ∈ (t.client m).pendingSet, p.origin = .source i ∧ p.detail = .sourceEnd b.frame b.pass .lost)
      ∧ (∀ w ∈ t.writeQueue, w.slot = f → w.stale = true)
      ∧ (∀ d k, (s.cursor d).slot = .opened k → onFrame k → (t.cursor d).slot = .lost k)
      ∧ (s.jobsOk → ∀ d k, (s.cursor d).slot = .opened k → onFrame k → (s.cursor d).job.isSome = true →
          (t.cursor d).job = none ∧ (t.port (ownerOf d)).buffer = some
            { status := .lost, tag := (s.port (ownerOf d)).tag, body := [] })
      ∧ t.errors = filed.errors ∧ t.logCounter = filed.logCounter
      ∧ (∀ m, ∀ p ∈ (filed.client m).pendingSet, p.detail.kindIndex = 13 → p ∈ (t.client m).pendingSet)
      ∧ ∀ m, (s.client m).levels[(4 : Fin 16)] ≠ 0 →
          ∃ p ∈ (t.client m).pendingSet, p.origin = .frame f ∧ p.detail = .frameFaulted (s.frame f).pass code

/-- A confirmed copy has put the row's payload and the entry posted into its pool row, and the row is preserved there, whatever
has become of the view since (R65, R114, R121). One that memory refuses, does not confirm in time, or whose read half finds the
check word wrong gives its pool row back and leaves the row lost to the view, DAMAGED in the last case, and files the error
(R62, R65, R129, R132). A stale one only leaves flight (R67). In each case the heads stalled on the row are READY. The place of
check word and preserved entry in a pool record is the model's choice (log 8); that a copy not confirmed has stored nothing (log
10), and that one whose pool row its view's release has returned already gives none back (log 15), are its readings. -/
def Obligations.CopiesPreserveOrLoseTheirRow : Prop :=
  ∀ (n : Nat) (o : WriteOp) (p : PoolRow) (h : LineInfo) (e : RowEntry) (s : State),
    s.issuedOp n = some o → o.kind = .rowCopy p h → s.rowEntry o.slot o.row = some e →
    let payload := s.memoryBytes (o.slot.val * 2097152 + o.row * 1024) (drumBytes o.drum)
    let kept := 2#8 :: lineInfoBytes h
    let record := payload ++ checkBytes (crc16 (255#8 :: beBytes 2 p.val ++ payload ++ kept)) ++ kept
    let base := 50331648 + p.val * 1024
    let failing (c : Instr) : Prop :=
      c = .copyFailed n ∧ s.answerFloor ≤ n ∨ c = .copyReadCorrupt n ∧ s.answerFloor ≤ n ∨ c = .confirmationTimeout n
    let returned (t : State) : Prop :=
      t.writeQueue = s.writeQueue.filter (fun w => w.issued != some n)
        ∧ ∀ i, (s.source i).head = .stalled o.slot o.row → (t.source i).head = .ready
    (s.answerFloor ≤ n →
        ∃ t, exec (.copyConfirmed n) s = .next t ∧ returned t
          ∧ (∀ a, t.memoryByte a =
              if base ≤ a ∧ a < base + record.length then record.getD (a - base) 0#8 else s.memoryByte a)
          ∧ t.pool = s.pool ∧ t.views = s.views ∧ t.errors = s.errors
          ∧ t.frame o.slot = { s.frame o.slot with
              rowMap := (s.frame o.slot).rowMap.set o.row
                (if o.stale then { e with inFlight := .no } else { e with inFlight := .no, preserved := some p }) })
      ∧ (∀ c, failing c → s.atRest → o.stale = true →
          ∃ t, exec c s = .next t ∧ returned t ∧ t.memory = s.memory ∧ t.pool = s.pool ∧ t.views = s.views
            ∧ t.errors = s.errors
            ∧ t.frame o.slot = { s.frame o.slot with
                rowMap := (s.frame o.slot).rowMap.set o.row { e with inFlight := .no } })
      ∧ ∀ c, failing c → s.atRest → o.stale = false →
          ((s.frame o.slot).state.canFault = true → (s.frame o.slot).memoryError = false) →
          ∃ t, exec c s = .next t ∧ returned t ∧ t.memory = s.memory
            ∧ (∀ v y, s.poolRow p = some { view := v, frame := o.slot, row := o.row } → s.view v = some y →
                t.poolRow p = none ∧ t.view v = some { y with held := y.held - 1 }
                  ∧ (∀ q, q ≠ p → t.poolRow q = s.poolRow q) ∧ ∀ w, w ≠ v → t.view w = s.view w)
            ∧ ((∀ v, s.poolRow p ≠ some { view := v, frame := o.slot, row := o.row }) →
                t.pool = s.pool ∧ t.views = s.views)
            ∧ (t.frame o.slot).rowMap = (s.frame o.slot).rowMap.set o.row
                { e with
                  inFlight := .no, lost := true
                  state := if c = .copyReadCorrupt n then .damaged (e.state.passOf.getD (s.frame o.slot).pass)
                    else e.state }
            ∧ s.filesMemoryError t
                (if c = .copyReadCorrupt n then .readCorrupt else if c = .copyFailed n then .writeFailed else .writeTimeout)
                o.slot o.row (if c = .copyReadCorrupt n then e.state.passOf.getD (s.frame o.slot).pass else o.pass)
                (if c = .copyReadCorrupt n then 3 else 2)

/-- A report on an operation that has returned by its timer reaches no block and frees no place; where memory carried a write
out after all, what it stored stays in the record (R119 to R121, R123). That memory then answers no earlier operation is the
model's reading (log 9), and the places of check word and preserved entry in a record are its choice (log 8). -/
def Obligations.LateReportsAreDiscarded : Prop :=
  ∀ (n : Nat) (s : State),
    (∀ late, s.late.find? (fun l => l.issued == n) = some late → late.op = none →
        ∀ carried, exec (.lateReport n carried) s = .next
          { s with answerFloor := n + 1, late := s.late.filter (fun l => decide (n < l.issued)) })
      ∧ ∀ late o, s.late.find? (fun l => l.issued == n) = some late → late.op = some o →
          exec (.lateReport n false) s = .next
              { s with answerFloor := n + 1, late := s.late.filter (fun l => decide (n < l.issued)) }
            ∧ (∀ payload, o.kind = .rowWrite payload →
                exec (.lateReport n true) s = .next
                  { s with
                    answerFloor := n + 1, late := s.late.filter (fun l => decide (n < l.issued))
                    memory := memoryWrite s.memory (o.slot.val * 2097152 + o.row * 1024)
                      (payload ++ checkBytes (crc16 (byteOf o.slot.val :: beBytes 2 o.row ++ payload))) })
            ∧ ∀ p h, o.kind = .rowCopy p h →
                let payload := s.memoryBytes (o.slot.val * 2097152 + o.row * 1024) (drumBytes o.drum)
                let kept := 2#8 :: lineInfoBytes h
                exec (.lateReport n true) s = .next
                  { s with
                    answerFloor := n + 1, late := s.late.filter (fun l => decide (n < l.issued))
                    memory := memoryWrite s.memory (50331648 + p.val * 1024)
                      (payload ++ checkBytes (crc16 (255#8 :: beBytes 2 p.val ++ payload ++ kept)) ++ kept) }

/-! ### Reservations, commits and pins (chapter 9) -/

/-- RESERVE records the target with its present stamp, valid, and gives its record; a FREE frame is NO_SUCH, a number out of
range BAD_REQUEST and a port without the target's class DENIED; at power-on no client has a reservation (R157). -/
def Obligations.ReserveRecordsATarget : Prop :=
  ∀ (n : ClientId) (tag : Nat) (s : State),
    (s.accepts n [.schedule] →
      (∀ e : EntryId, exec (.reserve n tag .entry e.val) s = .next
          ((s.setReservation n { target := some (.entry e), stamp := (s.entryAt e).stamp, valid := true }).withAnswer
            n tag .ok (s.entryAt e).bytes))
        ∧ ∀ k, 64 ≤ k → exec (.reserve n tag .entry k) s = .next (s.withAnswer n tag .badRequest []))
      ∧ (s.accepts n [.frameEdit] →
        (∀ f : FrameId, (s.frame f).state ≠ .free → exec (.reserve n tag .frame f.val) s = .next
            ((s.setReservation n { target := some (.frame f), stamp := (s.frame f).stamp, valid := true }).withAnswer
              n tag .ok (s.frameBytes f)))
          ∧ (∀ f : FrameId, (s.frame f).state = .free →
            exec (.reserve n tag .frame f.val) s = .next (s.withAnswer n tag .noSuch []))
          ∧ ∀ k, 24 ≤ k → exec (.reserve n tag .frame k) s = .next (s.withAnswer n tag .badRequest []))
      ∧ (s.accepts n [.mosaic] →
        (∀ g : GroupId, exec (.reserve n tag .group g.val) s = .next
            ((s.setReservation n { target := some (.group g), stamp := (s.group g).stamp, valid := true }).withAnswer
              n tag .ok (s.groupBytes g)))
          ∧ ∀ k, 8 ≤ k → exec (.reserve n tag .group k) s = .next (s.withAnswer n tag .badRequest []))
      ∧ ((s.port n).state = .idle ∨ (s.port n).state = .done → ∀ k,
        ((s.port n).holds [.schedule] = false →
            exec (.reserve n tag .entry k) s = .next (s.withAnswer n tag .denied []))
          ∧ ((s.port n).holds [.frameEdit] = false →
            exec (.reserve n tag .frame k) s = .next (s.withAnswer n tag .denied []))
          ∧ ((s.port n).holds [.mosaic] = false →
            exec (.reserve n tag .group k) s = .next (s.withAnswer n tag .denied [])))
      ∧ ∀ (cfg0 cfg1 cfg2 : Byte) (t : State), exec (.reset cfg0 cfg1 cfg2) s = .next t →
        ∀ m, (t.reservation m).valid = false ∧ (t.reservation m).target = none

/-- Every commit is tested in the order of R158: BAD_REQUEST for a target out of range; CONFLICT for no valid reservation,
for a reservation of another target, and, with the present stamp, for a stamp that has moved on. Whatever the answer, the
reservation is no longer valid. -/
def Obligations.CommitsAreTestedInOrder : Prop :=
  ∀ (c : Instr) (x : ClientFrame) (target : Option Target) (s : State), clientFrame c = some x →
    commitTarget c = some target → s.accepts x.port x.classes →
    let r := s.reservation x.port
    (target = none → exec c s = .next (s.withCommit x.port x.tag .badRequest []))
      ∧ (∀ t, target = some t → r.valid = false →
          exec c s = .next (s.withCommit x.port x.tag .conflict [0#8, 0#8, 0#8]))
      ∧ (∀ t, target = some t → r.valid = true → r.target ≠ some t →
          exec c s = .next (s.withCommit x.port x.tag .conflict [1#8, 0#8, 0#8]))
      ∧ (∀ t, target = some t → r.valid = true → r.target = some t → r.stamp ≠ s.stampOf t →
          exec c s = .next (s.withCommit x.port x.tag .conflict (2#8 :: beBytes 2 (s.stampOf t))))
      ∧ ∃ u, exec c s = .next u ∧ (u.reservation x.port).valid = false

/-- SCHEDULE_WRITE stores fields that lie in their ranges, SCHEDULE_SUSPEND makes the entry SUSPENDED and SCHEDULE_VACATE
makes it VACANT and ends reservations of it; the committing client becomes the writer, the stamp advances, and
SCHEDULE_CHANGED is raised. A write or a vacate while a RECEIVING or SETTLING frame is bound through the entry is IN_USE, and
suspending or vacating a VACANT entry NO_SUCH (R159 to R161). -/
def Obligations.ScheduleCommitsChangeTheEntry : Prop :=
  ∀ (n : ClientId) (tag : Nat) (e : EntryId) (s : State), s.accepts n [.schedule] → s.reserves n (.entry e) →
    let x := s.entryAt e
    let changed (d : Option (EntryMode × EntryFields)) (op : ScheduleOp) : State :=
      (((s.withoutReservation n).setEntry e { definition := d, writer := some n, stamp := next16 x.stamp }).raise
        (.client n) (.scheduleChanged e op)).withAnswer n tag .ok (beBytes 2 (next16 x.stamp))
    let inUse : Prop :=
      ∃ f, (s.frame f).entry = some e ∧ ((s.frame f).state = .receiving ∨ (s.frame f).state = .settling)
    let good (a : EntryArgs) : Prop :=
      entryArgsAllowed a ∧ (a.frequencies.take a.frequencyCount).Nodup
        ∧ (a.repeatOf = 255 ∨ ∃ r : EntryId, r.val = a.repeatOf ∧ r ≠ e ∧ s.repeatOf r = none
            ∧ ∀ k, k ≠ e → s.repeatOf k ≠ some e)
    (∀ a, a.frequencies.length = 4 → ¬ good a →
        exec (.scheduleWrite n tag e.val a) s = .next (s.withCommit n tag .badRequest []))
      ∧ (∀ a, a.frequencies.length = 4 → good a → inUse →
          exec (.scheduleWrite n tag e.val a) s = .next (s.withCommit n tag .inUse []))
      ∧ (∀ a, a.frequencies.length = 4 → good a → ¬ inUse →
          ∃ mode d, entryArgsCarry a mode d
            ∧ exec (.scheduleWrite n tag e.val a) s = .next (changed (some (mode, d)) .write))
      ∧ (x.definition = none →
          exec (.scheduleSuspend n tag e.val) s = .next (s.withCommit n tag .noSuch [])
            ∧ exec (.scheduleVacate n tag e.val) s = .next (s.withCommit n tag .noSuch []))
      ∧ ∀ m d, x.definition = some (m, d) →
          exec (.scheduleSuspend n tag e.val) s = .next (changed (some (.suspended, d)) .suspend)
            ∧ (inUse → exec (.scheduleVacate n tag e.val) s = .next (s.withCommit n tag .inUse []))
            ∧ (¬ inUse → ∃ t, exec (.scheduleVacate n tag e.val) s = .next t
                ∧ t = { changed none .vacate with reservations := t.reservations }
                ∧ ∀ m, t.reservation m =
                    if (s.reservation m).target = some (.entry e) then { s.reservation m with valid := false }
                    else s.reservation m)

/-- FRAME_ANNOTATE stores title and mark and advances the stamp. FRAME_RELEASE is IN_USE on a RECEIVING or SETTLING frame
and PINNED, with their number, while another client holds it; otherwise the frame becomes FREE with its stamp advanced, its
view released, its cursors LOST, its membership cleared, no error record marking it and no reservation naming it (R78, R132,
R159, R162, R163). -/
def Obligations.FrameCommitsAnnotateAndRelease : Prop :=
  ∀ (n : ClientId) (tag : Nat) (f : FrameId) (s : State), s.accepts n [.frameEdit] → s.reserves n (.frame f) →
    let x := s.frame f
    let others := (allClients.filter (fun m => decide (m ≠ n) && x.pins.explicit[m])).length
      + (allCursors.filter (fun c => decide (ownerOf c ≠ n) && x.pins.retain[c])).length
    (∀ (mark : Nat) (title : List Byte),
        (mark ≤ 255 ∧ title.length ≤ 32 ∧ (∀ b ∈ title, 32 ≤ b.toNat ∧ b.toNat ≤ 126) →
          exec (.frameAnnotate n tag f.val mark title) s = .next
            (((s.withoutReservation n).setFrame f
              { x with title := title, mark := mark, stamp := next16 x.stamp }).withAnswer n tag .ok
                (beBytes 2 (next16 x.stamp))))
        ∧ (¬ (mark ≤ 255 ∧ title.length ≤ 32 ∧ ∀ b ∈ title, 32 ≤ b.toNat ∧ b.toNat ≤ 126) →
          exec (.frameAnnotate n tag f.val mark title) s = .next (s.withCommit n tag .badRequest [])))
      ∧ (x.state = .receiving ∨ x.state = .settling →
          exec (.frameRelease n tag f.val) s = .next (s.withCommit n tag .inUse []))
      ∧ (x.state ≠ .receiving → x.state ≠ .settling → others ≠ 0 →
          exec (.frameRelease n tag f.val) s = .next (s.withCommit n tag .pinned [byteOf others]))
      ∧ (x.state ≠ .receiving → x.state ≠ .settling → others = 0 → s.atRest → s.jobsOk →
          ∃ t, exec (.frameRelease n tag f.val) s = .next t
            ∧ t.frame f = .freeWith (next16 x.stamp)
            ∧ (∀ g, g ≠ f → t.frame g = { s.frame g with pins := (t.frame g).pins })
            ∧ (∀ v, x.view = some v → t.view v = none ∧ ∀ p h, s.poolRow p = some h → h.view = v → t.poolRow p = none)
            ∧ (∀ c k, (s.cursor c).slot = .opened k → k.attachment = .current f ∨ k.attachment = .previous f →
                (t.cursor c).slot = .lost k)
            ∧ (∀ g k, x.mosaic = some (g, k) → t.sectionFrame g k = none)
            ∧ (∀ m, (s.reservation m).target = some (.frame f) → (t.reservation m).valid = false)
            ∧ t.errors = s.errors.map (fun r => if r.frame = some f then { r with marking := false } else r)
            ∧ (t.port n).state = .done
            ∧ (t.port n).buffer = some { status := .ok, tag := tag, body := beBytes 2 (next16 x.stamp) })

/-- MOSAIC_DEFINE builds a group of the sections it lists, GATHERING with their nominal rows where no frame fits them; each
section that frames fit takes a RECEIVING or SETTLING one, the lowest slot first, or the latest settled, and a group whose
sections have all settled becomes JOINING, or JOINED where it has no seam (R98, R102). A group that is defined is IN_USE, an entry of another group is a CONFLICT with that group's number, and a list that R98 does
not allow is BAD_REQUEST. MOSAIC_DISSOLVE makes the group UNDEFINED, its frames' memberships cleared, its cursors LOST, its
jobs gone and reservations of it ended. Either advances the stamp (R99, R159, R164). That the CONFLICT names the group of
the first such entry listed, and that an entry number above 63 is BAD_REQUEST, is the model's reading (log 26). -/
def Obligations.MosaicCommitsDefineAndDissolve : Prop :=
  ∀ (n : ClientId) (tag : Nat) (g : GroupId) (s : State), s.accepts n [.mosaic] → s.reserves n (.group g) →
    let x := s.group g
    let elsewhere (p : Nat × Nat) (h : GroupId) : Prop :=
      ∃ (e : EntryId) (k : Nat), e.val = p.1 ∧ s.sectionOfEntry e = some (h, k) ∧ h ≠ g
    (∀ l, x.state ≠ .undefined → exec (.mosaicDefine n tag g.val l) s = .next (s.withCommit n tag .inUse []))
      ∧ (∀ (l : List (Nat × Nat)) (k : Nat) (p : Nat × Nat) (h : GroupId), x.state = .undefined → l[k]? = some p →
          elsewhere p h → (∀ j < k, ∀ q h', l[j]? = some q → ¬ elsewhere q h') →
          exec (.mosaicDefine n tag g.val l) s = .next (s.withCommit n tag .conflict (3#8 :: beBytes 2 h.val)))
      ∧ (∀ l : List (Nat × Nat), x.state = .undefined → (∀ p ∈ l, ∀ h, ¬ elsewhere p h) →
          (∀ drum, ¬ s.definable drum l) →
          exec (.mosaicDefine n tag g.val l) s = .next (s.withCommit n tag .badRequest []))
      ∧ (∀ (l : List (Nat × Nat)) (drum : DrumClass), x.state = .undefined → (∀ p ∈ l, ∀ h, ¬ elsewhere p h) →
          s.definable drum l →
          ∃ t, exec (.mosaicDefine n tag g.val l) s = .next t
            ∧ (t.group g).drum = some drum ∧ (t.group g).stamp = next16 x.stamp
            ∧ ((t.group g).state = .gathering ∨ (t.group g).state = .joining ∨ (t.group g).state = .joined)
            ∧ (t.group g).sections.length = l.length
            ∧ (∀ k p, l[k]? = some p → ∃ (y : MosaicSection) (m : EntryMode) (d : EntryFields),
                (t.group g).sections[k]? = some y ∧ y.entry.val = p.1 ∧ (s.entryAt y.entry).definition = some (m, d)
                  ∧ y.nominal = d.rows ∧ y.seam.map Seam.overlap = if k = 0 then none else some p.2)
            ∧ (t.port n).buffer = some { status := .ok, tag := tag, body := beBytes 2 (next16 x.stamp) }
            ∧ (∀ k, (∀ f, ¬ s.fitsDefinition g drum l k f) → t.sectionFrame g k = none)
            ∧ ((∀ h, h ≠ g → ∀ y ∈ (s.group h).sections, ∀ p ∈ l, p.1 ≠ y.entry.val) →
              ∀ k f, s.pickedUp g drum l k f → t.sectionFrame g k = some f
                ∧ t.frame f = { s.frame f with mosaic := some (g, k), pins := (t.frame f).pins })
            ∧ (∀ f, (∀ k, t.sectionFrame g k ≠ some f) → t.frame f = s.frame f)
            ∧ (t.group g).height = (t.heightOf (t.group g).sections).toNat
            ∧ ((∃ y ∈ (t.group g).sections, ¬ t.settledIn y) → (t.group g).state = .gathering
                ∧ ∀ y ∈ (t.group g).sections, ∀ m ∈ y.seam, m.adjustment = 0 ∧ m.state = .none ∧ m.score = none)
            ∧ ((∀ y ∈ (t.group g).sections, t.settledIn y) →
                (t.group g).state = if l.length = 1 then .joined else .joining)
            ∧ ((∀ k f, ¬ s.fitsDefinition g drum l k f) → ∃ sections,
                t = ((s.withoutReservation n).setGroup g
                  { state := .gathering, drum := some drum, sections := sections, stamp := next16 x.stamp
                    height := (sections.map MosaicSection.nominal).sum - ((l.drop 1).map Prod.snd).sum }).withAnswer
                      n tag .ok (beBytes 2 (next16 x.stamp))
                  ∧ ∀ y ∈ sections, y.frame = none ∧ ∀ m ∈ y.seam,
                      m.adjustment = 0 ∧ m.state = .none ∧ m.score = none))
      ∧ (x.state = .undefined → exec (.mosaicDissolve n tag g.val) s = .next (s.withCommit n tag .noSuch []))
      ∧ (x.state ≠ .undefined → ∃ t, exec (.mosaicDissolve n tag g.val) s = .next t
          ∧ t.group g = .undefinedWith (next16 x.stamp)
          ∧ (∀ h, h ≠ g → (t.group h).state = (s.group h).state ∧ (t.group h).stamp = (s.group h).stamp)
          ∧ (∀ k f, s.sectionFrame g k = some f → (t.frame f).mosaic = none)
          ∧ (∀ c k, (s.cursor c).slot = .opened k → k.attachment = .group g → (t.cursor c).slot = .lost k)
          ∧ (∀ j ∈ t.seamQueue, j.1 ≠ g)
          ∧ (∀ y, s.engine = some y → t.engine = if y.group = g then none else some y)
          ∧ (∀ m, (s.reservation m).target = some (.group g) → (t.reservation m).valid = false)
          ∧ (t.port n).buffer = some { status := .ok, tag := tag, body := beBytes 2 (next16 x.stamp) })

/-- PIN adds the client to the pin holders of a frame that is not FREE and UNPIN takes it away, each answering the number of
holders and leaving the change stamp; a FREE frame, or for UNPIN one the client has not pinned, is NO_SUCH (R165). That UNPIN
of a slot above 23 is BAD_REQUEST as PIN of one is the model's choice (log 17). -/
def Obligations.PinsJoinAndLeaveTheHolders : Prop :=
  ∀ (n : ClientId) (tag : Nat) (s : State), s.accepts n [.pin] →
    (∀ f : FrameId,
        let x := s.frame f
        let pinned (b : Bool) : PinSet := { x.pins with explicit := setMember x.pins.explicit n b }
        (x.state ≠ .free → exec (.pin n tag f.val) s = .next
            ((s.setFrame f { x with pins := pinned true }).withAnswer n tag .ok [byteOf (pinned true).count]))
          ∧ (x.state = .free → exec (.pin n tag f.val) s = .next (s.withAnswer n tag .noSuch []))
          ∧ (x.state ≠ .free → x.pins.explicit[n] = true → exec (.unpin n tag f.val) s = .next
            ((s.setFrame f { x with pins := pinned false }).withAnswer n tag .ok [byteOf (pinned false).count]))
          ∧ (x.state = .free ∨ x.pins.explicit[n] = false →
            exec (.unpin n tag f.val) s = .next (s.withAnswer n tag .noSuch [])))
      ∧ ∀ k, 24 ≤ k → exec (.pin n tag k) s = .next (s.withAnswer n tag .badRequest [])
          ∧ exec (.unpin n tag k) s = .next (s.withAnswer n tag .badRequest [])

/-! ### Cursors, reads and scans (chapter 8) -/

/-- CURSOR_OPEN opens a CLOSED cursor on a frame, a view or a group with the fields given or their defaults, pins what it
holds where RETAIN is set and counts in the view it reads; it refuses as R140 says. It holds the frame, or the bound frame of
every section (R153), and its rows are the frame's, or the composite height (R139). -/
def Obligations.CursorOpenAttachesACursor : Prop :=
  (∀ (s : State) (f : FrameId) (w : Attachment), w = .current f ∨ w = .previous f →
      s.attachedFrames w = [f] ∧ s.attachmentRows w = ((s.frame f).geometry.map Geometry.rows).getD 0
        ∧ (s.attachRefusal w = none ↔ (s.frame f).state ≠ .free ∧ (s.frame f).state ≠ .faulted
          ∧ (w = .previous f → (s.frame f).view ≠ none)))
  ∧ (∀ (s : State) (g : GroupId), s.attachmentRows (.group g) = (s.group g).height
      ∧ (s.attachRefusal (.group g) = none ↔ (s.group g).state ≠ .undefined)
      ∧ ∀ f, f ∈ s.attachedFrames (.group g) ↔ ∃ y ∈ (s.group g).sections, y.frame = some f)
  ∧ ∀ (n : ClientId) (tag : Nat) (a : CursorOpenArgs) (s : State), s.accepts n (if a.retain then [.read, .pin] else [.read]) →
    let c := cursorOf n a.cursor
    let step := a.step.getD 1
    ((s.cursor c).slot ≠ .closed → exec (.cursorOpen n tag a) s = .next (s.withAnswer n tag .inUse []))
      ∧ ((s.cursor c).slot = .closed →
        attachmentOf a.kind a.number = none ∨ step = 0 ∨ step < -16 ∨ 16 < step ∨ (∃ b, a.window = some (b, 0)) →
          exec (.cursorOpen n tag a) s = .next (s.withAnswer n tag .badRequest []))
      ∧ ∀ w, (s.cursor c).slot = .closed → attachmentOf a.kind a.number = some w → step ≠ 0 → -16 ≤ step → step ≤ 16 →
        (∀ b, a.window ≠ some (b, 0)) →
        let rows := match w with
          | .current f => ((s.frame f).geometry.map Geometry.rows).getD 0
          | .previous f => ((s.frame f).geometry.map Geometry.rows).getD 0
          | .group g => (s.group g).height
        let base := (a.window.map Prod.fst).getD 0
        let length := (a.window.map Prod.snd).getD rows
        let position := a.position.getD (if 0 < step then base else base + length - 1)
        (∀ f, (w = .current f ∨ w = .previous f) → (s.frame f).state = .free →
            exec (.cursorOpen n tag a) s = .next (s.withAnswer n tag .noSuch []))
          ∧ (∀ f, (w = .current f ∨ w = .previous f) → (s.frame f).state = .faulted →
            exec (.cursorOpen n tag a) s = .next (s.withAnswer n tag .faulted []))
          ∧ (∀ f, w = .previous f → (s.frame f).state ≠ .free → (s.frame f).state ≠ .faulted → (s.frame f).view = none →
            exec (.cursorOpen n tag a) s = .next (s.withAnswer n tag .noView []))
          ∧ (∀ g, w = .group g → (s.group g).state = .undefined →
            exec (.cursorOpen n tag a) s = .next (s.withAnswer n tag .noSuch []))
          ∧ (s.attachRefusal w = none → ¬ (base + length ≤ rows ∧ base ≤ position ∧ position < base + length) →
            exec (.cursorOpen n tag a) s = .next (s.withAnswer n tag .badRequest []))
          ∧ (s.attachRefusal w = none → base + length ≤ rows → base ≤ position → position < base + length →
            ∃ t, exec (.cursorOpen n tag a) s = .next t
              ∧ t = { s with cursors := t.cursors, frames := t.frames, views := t.views, ports := t.ports }
              ∧ t.cursor c =
                { slot := .opened { attachment := w, position := position, step := step, base := base, length := length
                                    follow := a.follow, retain := a.retain }
                  job := none }
              ∧ (∀ d, d ≠ c → t.cursor d = s.cursor d)
              ∧ (∀ f, t.frame f = { s.frame f with
                  pins := if a.retain = true ∧ f ∈ s.attachedFrames w
                    then { (s.frame f).pins with retain := setMember (s.frame f).pins.retain c true }
                    else (s.frame f).pins })
              ∧ (∀ v, t.view v = if (∃ f, w = .previous f ∧ (s.frame f).view = some v)
                    then (s.view v).map (fun y => { y with cursors := y.cursors + 1 })
                    else s.view v)
              ∧ t.ports = (s.withAnswer n tag .ok (beBytes 2 position)).ports)

/-- CURSOR_SET stores the fields given together and keeps the others, or refuses by R140's cases and changes none. A new
attachment takes its whole window where none is given, and then its default position; the cursor leaves the old one, whose
settled view it may be the last to read, and attaches to the new, its pins moving with it (R91, R141, R153). Naming the present
attachment again is the model's reading of keeping it (log 18). CURSOR_CLOSE makes the cursor CLOSED, ends its pins and leaves
the view it read. A CLOSED cursor is NO_SUCH to both and a LOST one LOST to CURSOR_SET alone (R141, R142). -/
def Obligations.CursorSetAndCloseChangeTheCursor : Prop :=
  (∀ (n : ClientId) (tag : Nat) (a : CursorSetArgs) (s : State),
      s.accepts n (if (a.hints.map Prod.snd).getD false then [.read, .pin] else [.read]) →
      let c := cursorOf n a.cursor
      ((s.cursor c).slot = .closed → exec (.cursorSet n tag a) s = .next (s.withAnswer n tag .noSuch []))
        ∧ (∀ k, (s.cursor c).slot = .lost k → exec (.cursorSet n tag a) s = .next (s.withAnswer n tag .lost []))
        ∧ ∀ k, (s.cursor c).slot = .opened k →
          let refused (st : Status) : Prop := exec (.cursorSet n tag a) s = .next (s.withAnswer n tag st [])
          let named : Option Attachment := match a.attachment with
            | none => some k.attachment
            | some (kind, number) => attachmentOf kind number
          (named = none → refused .badRequest)
            ∧ ∀ w, named = some w →
              let whole : Bool := decide (w ≠ k.attachment ∧ a.window = none)
              let rows := s.attachmentRows w
              let step := a.step.getD k.step
              let base := if whole then 0 else (a.window.map Prod.fst).getD k.base
              let length := if whole then rows else (a.window.map Prod.snd).getD k.length
              let position := a.position.getD
                (if whole then (if 0 < step then 0 else rows - 1) else k.position)
              let allowed : Prop := step ≠ 0 ∧ -16 ≤ step ∧ step ≤ 16 ∧ (whole = true ∨ length ≠ 0)
              let fits : Prop := base + length ≤ rows ∧ base ≤ position ∧ position < base + length
              let new : CursorFields :=
                { attachment := w, position := position, step := step, base := base, length := length
                  follow := (a.hints.map Prod.fst).getD k.follow, retain := (a.hints.map Prod.snd).getD k.retain }
              let stored : State :=
                (s.setCursor c { s.cursor c with slot := .opened new }).withAnswer n tag .ok (beBytes 2 position)
              let pins (f : FrameId) : PinSet := { (s.frame f).pins with
                retain := setMember (s.frame f).pins.retain c (new.retain && decide (f ∈ s.attachedFrames w)) }
              (¬ allowed → refused .badRequest)
                ∧ (allowed → ∀ f, w = .current f ∨ w = .previous f → (s.frame f).state = .free → refused .noSuch)
                ∧ (allowed → ∀ f, w = .current f ∨ w = .previous f → (s.frame f).state = .faulted → refused .faulted)
                ∧ (allowed → ∀ f, w = .previous f → (s.frame f).state ≠ .free → (s.frame f).state ≠ .faulted →
                  (s.frame f).view = none → refused .noView)
                ∧ (allowed → ∀ g, w = .group g → (s.group g).state = .undefined → refused .noSuch)
                ∧ (allowed → s.attachRefusal w = none → ¬ fits → refused .badRequest)
                ∧ (allowed → s.attachRefusal w = none → fits → w = k.attachment → new.retain = k.retain →
                  exec (.cursorSet n tag a) s = .next stored)
                ∧ (allowed → s.attachRefusal w = none → fits → w = k.attachment → new.retain ≠ k.retain →
                  ∃ t, exec (.cursorSet n tag a) s = .next t ∧ t = { stored with frames := t.frames }
                    ∧ ∀ f, t.frame f = { s.frame f with
                        pins := if new.retain = false ∨ f ∈ s.attachedFrames k.attachment
                          then { (s.frame f).pins with retain := setMember (s.frame f).pins.retain c new.retain }
                          else (s.frame f).pins })
                ∧ (allowed → s.attachRefusal w = none → fits → w ≠ k.attachment → s.viewsOk →
                  let last (f : FrameId) : Prop := k.attachment = .previous f
                    ∧ ((s.frame f).state = .complete ∨ (s.frame f).state = .partialOnly)
                    ∧ ∃ v y, (s.frame f).view = some v ∧ s.view v = some y ∧ y.cursors = 1
                  ∃ t, exec (.cursorSet n tag a) s = .next t
                    ∧ t = { s with
                        cursors := t.cursors, frames := t.frames, views := t.views, pool := t.pool, ports := t.ports
                        holders := t.holders, seamHolder := t.seamHolder }
                    ∧ t.cursor c = { slot := .opened new, job := none } ∧ (∀ d, d ≠ c → t.cursor d = s.cursor d)
                    ∧ t.ports = stored.ports
                    ∧ (∀ f, (¬ last f → t.frame f = { s.frame f with pins := pins f })
                        ∧ (last f → t.frame f = { s.frame f with
                            pins := pins f, view := none, stamp := next16 (s.frame f).stamp
                            rowMap := (s.frame f).rowMap.map (fun e => { e with preserved := none, lost := false }) }))
                    ∧ ∀ f v y, (s.frame f).view = some v → s.view v = some y →
                        (last f → t.view v = none ∧ ∀ p h, s.poolRow p = some h →
                          t.poolRow p = if h.view = v then none else some h)
                          ∧ (¬ last f →
                            let count := if k.attachment = .previous f then y.cursors - 1
                              else if w = .previous f then y.cursors + 1 else y.cursors
                            t.view v = some { y with cursors := count })))
    ∧ ∀ (n : ClientId) (tag : Nat) (k : Fin 2) (s : State), s.accepts n [.read] →
      let c := cursorOf n k
      ((s.cursor c).slot = .closed → exec (.cursorClose n tag k) s = .next (s.withAnswer n tag .noSuch []))
        ∧ (∀ y, (s.cursor c).slot = .lost y → exec (.cursorClose n tag k) s = .next
            ((s.setCursor c { s.cursor c with slot := .closed }).withAnswer n tag .ok []))
        ∧ ∀ y, (s.cursor c).slot = .opened y →
            ∃ t, exec (.cursorClose n tag k) s = .next t ∧ (t.cursor c).slot = .closed
              ∧ (∀ f, (t.frame f).pins.retain[c] = false ∧ (t.frame f).pins.explicit = (s.frame f).pins.explicit)
              ∧ (t.port n).state = .done ∧ (t.port n).buffer = some { status := .ok, tag := tag, body := [] }
              ∧ ((∀ f, y.attachment ≠ .previous f) →
                  t.views = s.views ∧ ∀ f, (t.frame f).stamp = (s.frame f).stamp)
              ∧ ∀ f v z, y.attachment = .previous f → (s.frame f).view = some v → s.view v = some z →
                  t.view v = (if z.cursors - 1 = 0 ∧ ((s.frame f).state = .complete ∨ (s.frame f).state = .partialOnly)
                    then none else some { z with cursors := z.cursors - 1 })
                  ∧ (t.frame f).stamp = (if z.cursors - 1 = 0
                      ∧ ((s.frame f).state = .complete ∨ (s.frame f).state = .partialOnly)
                    then next16 (s.frame f).stamp else (s.frame f).stamp)

/-- READ_NEXT and READ_AT visit rows within the window and take each that needs no picture memory at once; at the first that
is PROVISIONAL, FIRM or preserved they place a read in the cursor's holder, or wait while a discarded one is there (log 19),
and with no more rows they answer. FOLLOW stops READ_NEXT NOT_YET, with the rows before the stop and the position moved past
them alone (R143 to R149). A lost row is ROW_LOST, any other taken at once OK, a DAMAGED one by the model's reading (log 25),
without payload, and the command's status is the first that is not OK (R145, R182). The range comes first, then NO_SUCH on a
CLOSED cursor and LOST on a LOST one (log 17). -/
def Obligations.ReadsAnswerOrPlaceARead : Prop :=
  (∀ (base length p : Nat) (k : Int), 0 < length →
      (moveInWindow base length p k : Int) = base + ((p : Int) - base + k) % length)
    ∧ (∀ (s : State) (f : FrameId) (row : Nat) (d : Geometry) (x : Option Naming), (s.frame f).geometry = some d →
      let needs (v : Showing) (p : Option PoolRow) : Prop :=
        s.readFor { showing := v, place := some (f, row), naming := x } = some (f, row, d.drum, p)
      let free (v : Showing) : Prop := s.readFor { showing := v, place := some (f, row), naming := x } = none
      (∀ e, (∃ l, e.state = .provisional l ∨ e.state = .firm l) → needs (.standing e) none)
        ∧ (∀ e, e.state = .empty ∨ e.state = .missed ∨ (∃ p, e.state = .damaged p) → free (.standing e))
        ∧ (∀ p, needs (.preserved p) (some p)) ∧ free .lost ∧ free .blank)
    ∧ (∀ (s : State) (x : Option Naming), s.readFor { showing := .blank, place := none, naming := x } = none)
    ∧ (∀ (row : Nat) (v : RowView), itemAtOnce row v =
        { row := row, status := if v.showing = .lost then .rowLost else .ok, report := v.showing.report
          naming := v.naming, payload := [] })
    ∧ (∀ items : List RowItem,
        ((∀ i ∈ items, i.status = .ok) → statusOfItems items = .ok)
          ∧ ∀ before i after, items = before ++ i :: after → (∀ j ∈ before, j.status = .ok) → i.status ≠ .ok →
            statusOfItems items = i.status)
    ∧ (∀ (p : Nat) (items : List RowItem),
        readBody p items = beBytes 2 p ++ [byteOf items.length] ++ items.flatMap RowItem.block)
    ∧ ∀ (n : ClientId) (tag : Nat) (i : Fin 2) (s : State), s.accepts n [.read] →
    let c := cursorOf n i
    (∀ count, count = 0 ∨ 8 < count → exec (.readNext n tag i count) s = .next (s.withAnswer n tag .badRequest []))
      ∧ (∀ offset : Int, offset < -64 ∨ 64 < offset →
          exec (.readAt n tag i offset) s = .next (s.withAnswer n tag .badRequest []))
      ∧ ∀ (count : Nat) (offset : Int), 1 ≤ count → count ≤ 8 → -64 ≤ offset → offset ≤ 64 →
        ((s.cursor c).slot = .closed →
            exec (.readNext n tag i count) s = .next (s.withAnswer n tag .noSuch [])
              ∧ exec (.readAt n tag i offset) s = .next (s.withAnswer n tag .noSuch []))
          ∧ (∀ k, (s.cursor c).slot = .lost k →
            exec (.readNext n tag i count) s = .next (s.withAnswer n tag .lost [])
              ∧ exec (.readAt n tag i offset) s = .next (s.withAnswer n tag .lost []))
          ∧ ∀ k, (s.cursor c).slot = .opened k →
            let visited (j : Nat) : Nat := moveInWindow k.base k.length k.position (j * k.step)
            let seen (j : Nat) : RowView := s.rowView k.attachment (visited j)
            let items (m : Nat) : List RowItem := (List.range m).map (fun j => itemAtOnce (visited j) (seen j))
            let answered (position : Nat) (status : Status) (l : List RowItem) : State :=
              (s.setCursor c { slot := .opened { k with position := position }, job := none }).withAnswer n tag status
                (readBody position l)
            let waiting (j : ReadJob) : State := (s.beginCommand n tag).setCursor c { slot := .opened k, job := some j }
            let placed (f : FrameId) (r : Nat) (drum : DrumClass) (pool : Option PoolRow) (j : ReadJob) : State :=
              (waiting j).setHolder (.cursor c)
                (some { slot := f, row := r, drum := drum, pool := pool, issued := none, fate := .normal
                        abandoned := false, viewGone := false })
            (∀ m, m ≤ count → (∀ j < m, s.readFor (seen j) = none ∧ ¬ s.stopsFollow k (seen j)) →
                (m = count →
                  exec (.readNext n tag i count) s = .next (answered (visited m) (statusOfItems (items m)) (items m)))
                ∧ (m < count → s.stopsFollow k (seen m) →
                  exec (.readNext n tag i count) s = .next (answered (visited m) .notYet (items m)))
                ∧ (m < count → ¬ s.stopsFollow k (seen m) → ∀ f r drum pool,
                  s.readFor (seen m) = some (f, r, drum, pool) →
                  (s.holder (.cursor c) = none →
                    exec (.readNext n tag i count) s = .next (placed f r drum pool
                      { kind := .readNext count, items := items m, phase := .awaiting (itemAtOnce (visited m) (seen m)) f r }))
                  ∧ (s.holder (.cursor c) ≠ none →
                    exec (.readNext n tag i count) s = .next (waiting
                      { kind := .readNext count, items := items m, phase := .retake }))))
              ∧ (let row := moveInWindow k.base k.length k.position offset
                let v := s.rowView k.attachment row
                (s.readFor v = none → exec (.readAt n tag i offset) s = .next
                    (answered k.position (statusOfItems [itemAtOnce row v]) [itemAtOnce row v]))
                  ∧ ∀ f r drum pool, s.readFor v = some (f, r, drum, pool) →
                    (s.holder (.cursor c) = none →
                      exec (.readAt n tag i offset) s = .next (placed f r drum pool
                        { kind := .readAt offset, items := [], phase := .awaiting (itemAtOnce row v) f r }))
                    ∧ (s.holder (.cursor c) ≠ none →
                      exec (.readAt n tag i offset) s = .next (waiting
                        { kind := .readAt offset, items := [], phase := .retake })))

/-- The data of a row that a command awaits, its check word right, empties the holder and gives the row's item: of a slot row
the entry as it stands now and its payload, of a pool row the preserved entry and payload (R122, R144, R149, R150). Rows after
it that need no picture memory follow; then the response is complete, FOLLOW stops it, or the next read is placed (R144, R146
to R148). Where the check word is wrong, or no data comes in 2 ms, the reader gets ROW_DAMAGED and READ_CORRUPT is filed: a
slot row is made DAMAGED; a pool row is given back and the row lost to the view, unless the view has gone (R62, R93, R122,
R123, R129, R132). A read of a frame now FREE reports nothing (R124). The model's choices or readings: the record layout (log
8), that memory then answers no earlier operation (9, from R117), that the command carries what came back (10), a preserved
row's last four bytes (16), a failed pool row's pass (21), the OK of a row found DAMAGED meanwhile (25), a second failing read
of a pool row (34). -/
def Obligations.ReadReturnsCompleteOrDamage : Prop :=
  (∀ (k : CursorFields) (m : Nat) (count : Nat) (offset : Int),
      (JobKind.readNext count).rows = count ∧ (JobKind.readAt offset).rows = 1
        ∧ (JobKind.readNext count).positionAfter k m = moveInWindow k.base k.length k.position (m * k.step)
        ∧ (JobKind.readAt offset).positionAfter k m = k.position)
    ∧ (∀ (c : CursorId) (m n : Nat) (r : ReadRequest) (k : CursorFields) (j : ReadJob) (item made : RowItem)
      (bytes payload : List Byte) (s : State), s.atRest →
      s.holder (.cursor c) = some r → r.issued = some m → s.answerFloor ≤ m → r.fate = .normal → r.abandoned = false →
      (s.cursor c).slot = .opened k → (s.cursor c).job = some j → j.phase = .awaiting item r.slot r.row →
      payload.length = drumBytes r.drum →
      ((∃ e, r.pool = none ∧ bytes = payload ++ checkBytes (crc16 (byteOf r.slot.val :: beBytes 2 r.row ++ payload))
          ∧ ((k.attachment = .current r.slot ∨ ∃ g, k.attachment = .group g) ∧ s.rowEntry r.slot r.row = some e
            ∨ k.attachment = .previous r.slot ∧ (s.rowView (.previous r.slot) r.row).showing = .standing e)
          ∧ made = { item with report := e.report, payload := if e.state.isFilled then payload else [] })
        ∨ ∃ p kept, r.pool = some p ∧ kept.length = 6
          ∧ bytes = payload ++ checkBytes (crc16 (255#8 :: beBytes 2 p.val ++ payload ++ kept)) ++ kept
          ∧ made = { item with report := kept ++ [0#8, 255#8, 1#8, 0#8], payload := payload }) →
      let emptied : State :=
        ({ s with answerFloor := m + 1, late := s.late.filter (fun l => decide (m < l.issued)) } : State).setHolder
          (.cursor c) none
      let next := j.items.length + 1
      let visited (i : Nat) : Nat := moveInWindow k.base k.length k.position ((next + i : Nat) * k.step)
      let seen (i : Nat) : RowView := s.rowView k.attachment (visited i)
      let items := j.items ++ made :: (List.range n).map (fun i => itemAtOnce (visited i) (seen i))
      let position := j.kind.positionAfter k items.length
      let answered (status : Status) : State :=
        (emptied.setCursor c { slot := .opened { k with position := position }, job := none }).answer (ownerOf c) status
          (readBody position items)
      (∀ i < n, s.readFor (seen i) = none ∧ ¬ s.stopsFollow k (seen i)) →
      (j.kind.rows = next + n → exec (.readData (.cursor c) (some bytes)) s = .next (answered (statusOfItems items)))
        ∧ (next + n < j.kind.rows → s.stopsFollow k (seen n) →
          exec (.readData (.cursor c) (some bytes)) s = .next (answered .notYet))
        ∧ ∀ f row drum pool, next + n < j.kind.rows → ¬ s.stopsFollow k (seen n) →
          s.readFor (seen n) = some (f, row, drum, pool) →
          exec (.readData (.cursor c) (some bytes)) s = .next
            ((emptied.setHolder (.cursor c)
              (some { slot := f, row := row, drum := drum, pool := pool, issued := none, fate := .normal
                      abandoned := false, viewGone := false })).setCursor c
              { slot := .opened k
                job := some { kind := j.kind, items := items
                              phase := .awaiting (itemAtOnce (visited n) (seen n)) f row } }))
    ∧ ∀ (h : ReadHolder) (m : Nat) (r : ReadRequest) (s : State), s.atRest → s.holder h = some r → r.issued = some m →
      (∀ bytes, s.answerFloor ≤ m → r.fate = .vanished → ∃ t, exec (.readData h (some bytes)) s = .next t
          ∧ t.frames = s.frames ∧ t.errors = s.errors)
        ∧ ∀ (d : Instr) (noAnswer : Bool),
          ((noAnswer = false ∧ s.answerFloor ≤ m ∧ ∃ bytes, d = .readData h (some bytes) ∧ r.checks bytes = false)
            ∨ noAnswer = true ∧ d = .readTimeout h) →
          r.fate ≠ .vanished →
          ((s.frame r.slot).state.canFault = true → (s.frame r.slot).memoryError = false) →
          ∃ t, exec d s = .next t ∧ t.memory = s.memory
            ∧ (∀ e, r.pool = none → s.rowEntry r.slot r.row = some e →
                let pass := e.state.passOf.getD (s.frame r.slot).pass
                (t.frame r.slot).rowMap = (s.frame r.slot).rowMap.set r.row { e with state := .damaged pass }
                  ∧ t.views = s.views ∧ t.pool = s.pool
                  ∧ s.filesMemoryError t .readCorrupt r.slot r.row pass
                    ((match h with | .cursor _ => 1 | .seam => 2) + (if noAnswer then 4 else 0)))
            ∧ (∀ p e, r.pool = some p → r.viewGone = false → s.rowEntry r.slot r.row = some e →
                (t.frame r.slot).rowMap = (s.frame r.slot).rowMap.set r.row { e with preserved := none, lost := true }
                  ∧ (∀ v y, s.poolRow p = some { view := v, frame := r.slot, row := r.row } → s.view v = some y →
                      t.poolRow p = none ∧ t.view v = some { y with held := y.held - 1 }
                        ∧ (∀ q, q ≠ p → t.poolRow q = s.poolRow q) ∧ ∀ w, w ≠ v → t.view w = s.view w)
                  ∧ s.filesMemoryError t .readCorrupt r.slot r.row
                    (s.memoryByte (poolBase p + drumBytes r.drum + 4)).toNat (if noAnswer then 7 else 4))
            ∧ (r.pool.isSome = true → r.viewGone = true →
                t.frames = s.frames ∧ t.views = s.views ∧ t.pool = s.pool ∧ t.errors = s.errors
                  ∧ t.logCounter = s.logCounter)
            ∧ ∀ c k j item, h = .cursor c → r.fate = .normal → r.abandoned = false → (s.cursor c).slot = .opened k →
                (s.cursor c).job = some j → j.phase = .awaiting item r.slot r.row → j.kind.rows = j.items.length + 1 →
                let items := j.items ++ [{ item with status := .rowDamaged, payload := [] }]
                (t.cursor c).job = none ∧ t.holder (.cursor c) = none
                  ∧ (t.port (ownerOf c)).buffer = some
                    { status := statusOfItems items, tag := (s.port (ownerOf c)).tag
                      body := readBody (j.kind.positionAfter k items.length) items }

/-- READ_MAP reports the entries of up to 64 rows as the attachment shows them. SCAN tests rows from the cursor's position
by its step, stops at the first that satisfies the condition or at the limit, leaves the position there and reports the
row (R151, R152). A frame's row is shown as its entry stands; a view shows it by the four tests of R90; a composite row is the
better of the rows that cover it, the upper section's of two equal ones, and is EMPTY where none does (R105); and the
conditions are those of R152's table. That a SCAN's BAD_REQUEST comes before NO_SUCH and LOST is the model's choice (log 17);
that a SCAN is one step (log 30), and the bytes of a row shown lost, preserved or EMPTY that R182 does not list (log 16), are
its reading. -/
def Obligations.MapReadsAndScansReportRows : Prop :=
  (∀ (f : FrameId) (row : Nat) (e : RowEntry) (s : State), s.rowEntry f row = some e →
      s.rowView (.current f) row = { showing := .standing e, place := some (f, row), naming := none }
        ∧ ∀ v y, (s.frame f).view = some v → s.view v = some y →
          let shown (x : Showing) : Prop :=
            s.rowView (.previous f) row = { showing := x, place := some (f, row), naming := none }
          let later := ∃ p, e.state.carriesPass p ∧ y.generation < p
          (∀ p, e.preserved = some p → shown (.preserved p))
            ∧ (e.preserved = none → e.lost = true → shown .lost)
            ∧ (e.preserved = none → e.lost = false → later → shown .blank)
            ∧ (e.preserved = none → e.lost = false → ¬ later → shown (.standing e)))
    ∧ (∀ (g : GroupId) (c : Nat) (s : State),
      let blank : RowView := { showing := .blank, place := none, naming := none }
      ((∀ k, ¬ s.covers g k c) → s.rowView (.group g) c = blank)
        ∧ ∀ k, s.covers g k c →
          (∀ j, s.covers g j c → j ≠ k → gradeOf (s.sectionEntry g j c) < gradeOf (s.sectionEntry g k c)
            ∨ gradeOf (s.sectionEntry g j c) = gradeOf (s.sectionEntry g k c) ∧ k < j) →
          (s.sectionFrame g k = none → s.rowView (.group g) c = blank)
            ∧ ∀ f e, s.sectionFrame g k = some f → s.rowEntry f (s.sectionRow g k c) = some e →
              s.rowView (.group g) c =
                { showing := .standing e, place := some (f, s.sectionRow g k c)
                  naming := some { index := k, frame := f, row := s.sectionRow g k c } })
    ∧ (∀ (e : RowEntry) (p : PoolRow),
      let flight : List Byte := [if e.inFlight = .no then 0#8 else 1#8,
        match e.inFlight with | .write (some l) => byteOf l.quality | _ => 255#8,
        if e.preserved = none then 0#8 else 1#8, if e.lost then 1#8 else 0#8]
      (Showing.standing e).report = (match e.state with
          | .empty => [0#8, 255#8, 255#8, 255#8, 128#8, 255#8]
          | .missed => [1#8, 255#8, 255#8, 255#8, 128#8, 255#8]
          | .provisional l => 2#8 :: lineInfoBytes l
          | .firm l => 3#8 :: lineInfoBytes l
          | .damaged pass => [4#8, 255#8, byteOf pass, 255#8, 128#8, 255#8]) ++ flight
        ∧ (Showing.preserved p).report = [2#8, 255#8, 255#8, 255#8, 128#8, 255#8, 0#8, 255#8, 1#8, 0#8]
        ∧ Showing.lost.report = [255#8, 255#8, 255#8, 255#8, 128#8, 255#8, 255#8, 255#8, 255#8, 1#8]
        ∧ Showing.blank.report = [0#8, 255#8, 255#8, 255#8, 128#8, 255#8, 0#8, 255#8, 0#8, 0#8])
    ∧ (∀ code parameter : Nat, (scanConditionOf code parameter).isSome = true ↔
        code ≤ 11 ∧ ((code = 7 ∨ code = 8) → parameter ≤ 255) ∧ (code = 9 → parameter ≤ 2)
          ∧ (code = 11 → 1 ≤ parameter ∧ parameter ≤ 15))
    ∧ (∀ (code parameter : Nat) (cond : ScanCondition) (v : Showing), scanConditionOf code parameter = some cond →
      let entry (q : RowState → Prop) : Prop := ∃ e, v = .standing e ∧ q e.state
      let line (q : LineInfo → Prop) : Prop := entry (fun st => ∃ l, (st = .provisional l ∨ st = .firm l) ∧ q l)
      let kept : Prop := ∃ p, v = .preserved p
      let unfilled (st : RowState) : Prop := st = .empty ∨ st = .missed ∨ ∃ p, st = .damaged p
      let provisional : Prop := entry (fun st => ∃ l, st = .provisional l)
      let firm : Prop := entry (fun st => ∃ l, st = .firm l)
      let holds (q : Prop) : Prop := (cond.holds v = true ↔ q)
      (code = 0 → holds (entry (· = .empty) ∨ v = .blank)) ∧ (code = 1 → holds (entry (· = .missed)))
        ∧ (code = 2 → holds (provisional ∨ kept)) ∧ (code = 3 → holds firm)
        ∧ (code = 4 → holds (entry (fun st => ∃ p, st = .damaged p)))
        ∧ (code = 5 → holds (entry unfilled ∨ v = .blank)) ∧ (code = 6 → holds (provisional ∨ firm ∨ kept))
        ∧ (code = 7 → holds (line (fun l => l.quality < parameter)))
        ∧ (code = 8 → holds (line (fun l => parameter ≤ l.quality)))
        ∧ (code = 9 → holds (line (fun l => l.source.val = parameter)))
        ∧ (code = 10 → holds (line (fun l => l.flags.skewed = true ∨ l.flags.unphased = true ∨ l.flags.faded = true)))
        ∧ (code = 11 → holds (entry (fun st => st.carriesPass parameter))))
    ∧ ∀ (n : ClientId) (tag : Nat) (s : State), s.accepts n [.read] →
    (∀ (kind : AttachKind) (number first count : Nat),
        (attachmentOf kind number = none ∨ count = 0 ∨ 64 < count →
          exec (.readMap n tag kind number first count) s = .next (s.withAnswer n tag .badRequest []))
        ∧ (∀ w, s.mapRefusal w = none ↔ match w with
            | .current f => (s.frame f).state ≠ .free
            | .previous f => (s.frame f).state ≠ .free ∧ (s.frame f).view ≠ none
            | .group g => (s.group g).state ≠ .undefined)
        ∧ ∀ w, attachmentOf kind number = some w → 1 ≤ count → count ≤ 64 →
          (∀ f, (w = .current f ∨ w = .previous f) → (s.frame f).state = .free →
              exec (.readMap n tag kind number first count) s = .next (s.withAnswer n tag .noSuch []))
            ∧ (∀ f, w = .previous f → (s.frame f).state ≠ .free → (s.frame f).view = none →
              exec (.readMap n tag kind number first count) s = .next (s.withAnswer n tag .noView []))
            ∧ (∀ g, w = .group g → (s.group g).state = .undefined →
              exec (.readMap n tag kind number first count) s = .next (s.withAnswer n tag .noSuch []))
            ∧ (s.mapRefusal w = none → s.attachmentRows w ≤ first →
              exec (.readMap n tag kind number first count) s = .next (s.withAnswer n tag .badRequest []))
            ∧ (s.mapRefusal w = none → first < s.attachmentRows w →
              let reported := min count (s.attachmentRows w - first)
              exec (.readMap n tag kind number first count) s = .next (s.withAnswer n tag .ok
                (byteOf reported :: (List.range reported).flatMap (fun k =>
                  beBytes 2 (first + k) ++ (s.rowView w (first + k)).showing.report
                    ++ namingBytes (s.rowView w (first + k)).naming)))))
      ∧ ∀ (i : Fin 2) (condition parameter limit : Nat),
        let c := cursorOf n i
        (scanConditionOf condition parameter = none ∨ limit = 0 ∨ 2048 < limit →
            exec (.scan n tag i condition parameter limit) s = .next (s.withAnswer n tag .badRequest []))
          ∧ ∀ cond, scanConditionOf condition parameter = some cond → 1 ≤ limit → limit ≤ 2048 →
            ((s.cursor c).slot = .closed →
                exec (.scan n tag i condition parameter limit) s = .next (s.withAnswer n tag .noSuch []))
              ∧ (∀ k, (s.cursor c).slot = .lost k →
                exec (.scan n tag i condition parameter limit) s = .next (s.withAnswer n tag .lost []))
              ∧ ∀ k, (s.cursor c).slot = .opened k →
                let tested (j : Nat) : Nat := (fun p => moveInWindow k.base k.length p k.step)^[j] k.position
                let seen (j : Nat) : RowView := s.rowView k.attachment (tested j)
                let ended (j : Nat) (flags : Byte) : State :=
                  (s.setCursor c { s.cursor c with slot := .opened { k with position := tested j } }).withAnswer n tag .ok
                    (beBytes 2 (tested j) ++ ((seen j).showing.report ++ namingBytes (seen j).naming) ++ [flags])
                (∀ j < limit, cond.holds (seen j).showing = true →
                    (∀ m < j, cond.holds (seen m).showing = false) →
                    exec (.scan n tag i condition parameter limit) s = .next
                      (ended j (if j + 1 = limit then 3#8 else 1#8)))
                  ∧ ((∀ j < limit, cond.holds (seen j).showing = false) →
                    exec (.scan n tag i condition parameter limit) s = .next (ended (limit - 1) 2#8))

/-! ### Notices (chapter 10) and errors (chapter 7) -/

/-- NOTICE_SET_LEVELS stores the levels given, moves the pending pairs to them and drops those at level 0;
NOTICE_SET_THRESHOLD stores the threshold; NOTICE_SUMMARY reports the pairs of a level; NOTICE_ACK takes a pair away unless
a count is given that has moved on. The NOTICE line follows (R168, R170 to R172; a yes-or-no byte above 1 is log 7). -/
def Obligations.NoticeCommandsKeepTheClientsRecord : Prop :=
  ∀ (n : ClientId) (tag : Nat) (s : State), s.accepts n [.notice] →
    let x := s.client n
    let lit (y : NoticeClient) : NoticeClient := { y with line := y.pendingSet.any (fun p => decide (y.threshold < p.level)) }
    (∀ pairs : List (Nat × Nat),
        let allowed := (∀ p ∈ pairs, 1 ≤ p.1 ∧ p.1 ≤ 16 ∧ p.2 ≤ 7) ∧ (pairs.map Prod.fst).Nodup
        (¬ allowed → exec (.noticeSetLevels n tag pairs) s = .next (s.withAnswer n tag .badRequest []))
          ∧ (allowed → ∃ levels : Vector Nat 16,
            (∀ p ∈ pairs, ∀ k : Fin 16, k.val + 1 = p.1 → levels[k] = p.2)
              ∧ (∀ k : Fin 16, (∀ p ∈ pairs, p.1 ≠ k.val + 1) → levels[k] = x.levels[k])
              ∧ exec (.noticeSetLevels n tag pairs) s = .next
                ((s.setClient n (lit { x with
                  levels := levels
                  pendingSet := (x.pendingSet.map (fun p => { p with level := levels[p.detail.kindIndex] })).filter
                    (fun p => decide (p.level ≠ 0)) })).withAnswer n tag .ok [])))
      ∧ (∀ k, 7 < k → exec (.noticeSetThreshold n tag k) s = .next (s.withAnswer n tag .badRequest []))
      ∧ (∀ k, k ≤ 7 → exec (.noticeSetThreshold n tag k) s = .next
          ((s.setClient n (lit { x with threshold := k })).withAnswer n tag .ok []))
      ∧ (∀ k, k = 0 ∨ 7 < k → exec (.noticeSummary n tag k) s = .next (s.withAnswer n tag .badRequest []))
      ∧ (∀ k, 1 ≤ k → k ≤ 7 →
          let pairsAt (l : Nat) : List NoticePair := x.pendingSet.filter (fun p => p.level == l)
          exec (.noticeSummary n tag k) s = .next (s.withAnswer n tag .ok
            ([byteOf (pairsAt 1).length, byteOf (pairsAt 2).length, byteOf (pairsAt 3).length, byteOf (pairsAt 4).length,
                byteOf (pairsAt 5).length, byteOf (pairsAt 6).length, byteOf (pairsAt 7).length,
                byteOf (min 32 (pairsAt k).length)]
              ++ ((pairsAt k).take 32).flatMap NoticePair.bytes
              ++ [byteOf ((pairsAt k).length - 32), if pairsAt k = [] then 0#8 else 1#8]
              ++ (match (pairsAt k).head? with
                | none => [255#8, 255#8, 255#8, 255#8, 255#8, 255#8, 255#8, 255#8]
                | some p => p.bytes))))
      ∧ ∀ kind sort number count : Nat,
          let named (p : NoticePair) : Bool := decide (p.detail.kindCode = kind ∧ p.origin.code = (sort, number))
          (x.pendingSet.find? named = none → ∀ given,
              exec (.noticeAck n tag kind sort number given count) s = .next (s.withAnswer n tag .noSuch []))
            ∧ ∀ p, x.pendingSet.find? named = some p →
              (∀ given, given = 0 ∨ given = 1 ∧ count = p.count →
                  exec (.noticeAck n tag kind sort number given count) s = .next
                    ((s.setClient n (lit { x with pendingSet := x.pendingSet.filter (fun q => !named q) })).withAnswer
                      n tag .ok []))
                ∧ (count ≠ p.count → exec (.noticeAck n tag kind sort number 1 count) s = .next
                    (s.withAnswer n tag .conflict ([byteOf p.count] ++ p.detail.bytes ++ [byteOf p.level])))

/-- NOTICE_RAISE offers RELAY to the client named and tells whether it is filed. A notice offered to a client that gives its
kind level 0 is not filed; otherwise it joins the pending set in the set's order at that level with a count of 1, or merges
into the pair of its kind and origin, whose detail it replaces and whose count rises, and the NOTICE line follows (R169,
R170, R173). -/
def Obligations.NoticesAreFiledOrMerged : Prop :=
  (∀ (n : ClientId) (tag : Nat) (s : State), s.accepts n [.relay] →
      (∀ (m : ClientId) (code : Nat), code ≤ 255 → exec (.noticeRaise n tag m.val code) s = .next
          ((s.setClient m ((s.client m).offer (.client n) (.relay code))).withAnswer n tag .ok
            [if (s.client m).levels[(15 : Fin 16)] = 0 then 0#8 else 1#8]))
        ∧ ∀ target code : Nat, 3 ≤ target ∨ 255 < code →
          exec (.noticeRaise n tag target code) s = .next (s.withAnswer n tag .badRequest []))
    ∧ ∀ (x : NoticeClient) (o : Origin) (d : NoticeDetail),
      let level := x.levels[d.kindIndex]
      let same (q : NoticePair) : Prop := q.detail.kindIndex = d.kindIndex ∧ q.origin = o
      (level = 0 → x.offer o d = x)
        ∧ (level ≠ 0 → x.inOrder →
          (x.offer o d).levels = x.levels ∧ (x.offer o d).threshold = x.threshold
            ∧ (x.offer o d).inOrder
            ∧ ((x.offer o d).line = true ↔ ∃ p ∈ (x.offer o d).pendingSet, x.threshold < p.level)
            ∧ (∀ q, ¬ same q → (q ∈ (x.offer o d).pendingSet ↔ q ∈ x.pendingSet))
            ∧ (∀ q ∈ x.pendingSet, same q →
                { q with detail := d, count := if q.count < 255 then q.count + 1 else 255 } ∈ (x.offer o d).pendingSet
                  ∧ (x.offer o d).pendingSet.length = x.pendingSet.length)
            ∧ ((∀ q ∈ x.pendingSet, ¬ same q) →
                { origin := o, detail := d, level := level, count := 1 } ∈ (x.offer o d).pendingSet
                  ∧ (x.offer o d).pendingSet.length = x.pendingSet.length + 1))

/-- ERRORS_PEEK reads the first records of the queue and removes nothing; a count outside 1 to 8 is BAD_REQUEST (R136). -/
def Obligations.ErrorsPeekRemovesNothing : Prop :=
  ∀ (n : ClientId) (tag count : Nat) (s : State), s.accepts n [.read] →
    (1 ≤ count → count ≤ 8 → exec (.errorsPeek n tag count) s = .next (s.withAnswer n tag .ok
        ([byteOf s.errors.length, byteOf (min count s.errors.length)]
          ++ (s.errors.take count).flatMap ErrorRecord.bytes)))
      ∧ (count = 0 ∨ 8 < count → exec (.errorsPeek n tag count) s = .next (s.withAnswer n tag .badRequest []))

/-- ERRORS_TAKE removes the oldest records up to the one with the log number and answers them; each that is marking clears
the mark of the frame it names; a number no record has is NO_SUCH (R137). A logged error folds into the newest record of
its kind, origin and frame, or is appended, or, the queue full, is dropped and counted on the newest (R129). -/
def Obligations.ErrorsAreTakenAndFiled : Prop :=
  (∀ (n : ClientId) (tag logNumber : Nat) (s : State), s.accepts n [.read] →
      ((∀ r ∈ s.errors, r.number ≠ logNumber) →
          exec (.errorsTake n tag logNumber) s = .next (s.withAnswer n tag .noSuch []))
        ∧ ∀ (before rest : List ErrorRecord) (r : ErrorRecord), s.errors = before ++ r :: rest → r.number = logNumber →
          (∀ q ∈ before, q.number ≠ logNumber) →
          ∃ t, exec (.errorsTake n tag logNumber) s = .next t
            ∧ t = { s.withAnswer n tag .ok
                (byteOf (before.length + 1) :: (before ++ [r]).flatMap ErrorRecord.bytes) with
                  errors := rest, frames := t.frames }
            ∧ ∀ f, ((∃ q ∈ before ++ [r], q.frame = some f ∧ q.marking = true) →
                  t.frame f = { s.frame f with memoryError := false })
                ∧ ((∀ q ∈ before ++ [r], q.frame = some f → q.marking = false) → t.frame f = s.frame f))
    ∧ ∀ (e : ErrorReport) (s : State),
      let raised (errors : List ErrorRecord) (counter : Nat) (f : Filing) : State :=
        ({ s with errors := errors, logCounter := counter } : State).raise e.origin (.errorLogged e.kind f)
      let made : ErrorRecord :=
        { number := s.logCounter, kind := e.kind, origin := e.origin, frame := e.frame, row := e.row, pass := e.pass
          detail := e.detail, time := if s.clock.isSet then s.clock.second else 0, repeats := 0, lost := 0
          marking := false }
      (s.errors = [] → s.logError e = raised [made] ((s.logCounter + 1) % 65536) .appended)
        ∧ ∀ before r, s.errors = before ++ [r] →
          let same := r.kind = e.kind ∧ r.origin = e.origin ∧ r.frame = e.frame
          (same → s.logError e = raised
              (before ++ [{ r with repeats := if r.repeats < 255 then r.repeats + 1 else 255 }]) s.logCounter .folded)
            ∧ (¬ same → s.errors.length < 8 → s.logError e = raised (s.errors ++ [made]) ((s.logCounter + 1) % 65536)
              .appended)
            ∧ (¬ same → 8 ≤ s.errors.length → s.logError e = raised
              (before ++ [{ r with lost := if r.lost < 255 then r.lost + 1 else 255 }]) s.logCounter .dropped)

/-! ### The seam engine (section 5.6) -/

/-- An idle engine takes the job at the head of the queue, its seam SEARCHING, and WAITING seams join the queue in order; a
busy one, or an empty queue, takes nothing (R106, R107). It passes over rows that hold no line, reads the first that does, and
records WEAK where none does; while a discarded read is outstanding it takes no row (R110; the model's choice, log 33). A row
read is kept, and at the end of its windows the result is recorded, on which the composite height and the group follow (R102,
R104, R109). The score at a shift is the sum of the grey differences of its counted pairs; the best shift from -12 to +12 has
the lowest score, the smaller shift of two equal ones and the negative one of two as large, and there is none only where no
shift has a score. The seam is FOUND at it with at least 4 pairs and a score within the accept limit, else WEAK at 0 (R108).
The model's: the record's layout (log 8), the order of memory's answers (9, R117), that the command carries the record (10). -/
def Obligations.SeamSearchTakesTheBestShift : Prop :=
  (∀ (g : GroupId) (k : Nat) (rest : List (GroupId × Nat)) (upper lower : FrameId) (m : Seam) (drum : DrumClass)
      (d : Geometry) (s : State), s.engine = none → s.seamQueue = (g, k) :: rest →
      s.sectionFrame g (k - 1) = some upper → s.sectionFrame g k = some lower → s.seam g k = some m →
      (s.group g).drum = some drum → (s.frame upper).geometry = some d →
      ((s.group g).state = .gathering → ∃ z ∈ (s.group g).sections, ¬ s.settledIn z) →
      let x : Search :=
        { group := g, seam := k, drum := drum, upperFrame := upper, lowerFrame := lower, upperRows := d.rows
          overlap := m.overlap, taken := [] }
      let waiting : List (GroupId × Nat) := allGroups.flatMap (fun h => ((List.range 6).filter (fun j =>
        decide ((h, j) ≠ (g, k)) && (s.seam h j).any (fun y => decide (y.state = .waiting)))).map (fun j => (h, j)))
      let admitted := waiting.take (8 - rest.length)
      ∃ t, exec .seamJobTake s = .next t ∧ t.seamQueue = rest ++ admitted
        ∧ (∀ h j, (h, j) ≠ (g, k) → t.seam h j = (s.seam h j).map (fun y =>
            if (h, j) ∈ admitted then { y with state := .queued } else y))
        ∧ (∀ h, (t.group h).sections.map (fun y => { y with seam := none })
              = (s.group h).sections.map (fun y => { y with seam := none })
            ∧ (h ≠ g ∨ t.engine.isSome = true → t.group h = { s.group h with sections := (t.group h).sections }))
        ∧ (s.seamHolder ≠ none → t.seam g k = some { m with state := .searching }
            ∧ t = { s with seamQueue := t.seamQueue, groups := t.groups, engine := some x })
        ∧ ∀ n ≤ x.windowLength, s.seamHolder = none → (∀ i < n, ¬ s.searchable (x.windowRow i)) →
          (n < x.windowLength → s.searchable (x.windowRow n) → t.seam g k = some { m with state := .searching }
            ∧ t = { s with
                seamQueue := t.seamQueue, groups := t.groups, engine := some { x with taken := .replicate n none }
                seamHolder := some { slot := (x.windowRow n).1, row := (x.windowRow n).2, drum := drum, pool := none
                                     issued := none, fate := .normal, abandoned := false, viewGone := false } })
          ∧ (n = x.windowLength → s.searchEnds t g
            ∧ t.seam g k = some { m with state := .weak, adjustment := 0, score := none }
            ∧ t = { s with seamQueue := t.seamQueue, groups := t.groups, clients := t.clients }))
    ∧ (∀ s : State, s.engine ≠ none ∨ s.seamQueue = [] → exec .seamJobTake s = .next s)
    ∧ (∀ (m n : Nat) (x : Search) (r : ReadRequest) (payload : List Byte) (s : State), s.atRest → s.engine = some x →
        s.holder .seam = some r → r.issued = some m → s.answerFloor ≤ m → r.fate = .normal → r.abandoned = false →
        r.pool = none → payload.length = drumBytes r.drum →
        let bytes := payload ++ checkBytes (crc16 (byteOf r.slot.val :: beBytes 2 r.row ++ payload))
        let next := x.taken.length + 1
        let y : Search := { x with taken := x.taken ++ some payload :: List.replicate n none }
        next + n ≤ x.windowLength → x.windowRow x.taken.length = (r.slot, r.row) →
        (∀ i < n, ¬ s.searchable (x.windowRow (next + i))) →
        (next + n < x.windowLength → s.searchable (x.windowRow (next + n)) →
          exec (.readData .seam (some bytes)) s = .next
            (({ s with
                answerFloor := m + 1, late := s.late.filter (fun l => decide (m < l.issued)), engine := some y } : State).setHolder
              .seam (some { slot := (x.windowRow (next + n)).1, row := (x.windowRow (next + n)).2, drum := x.drum, pool := none
                            issued := none, fate := .normal, abandoned := false, viewGone := false })))
        ∧ (next + n = x.windowLength →
          ((s.group x.group).state = .gathering → ∃ z ∈ (s.group x.group).sections, ¬ s.settledIn z) →
          ∃ t, exec (.readData .seam (some bytes)) s = .next t ∧ s.searchEnds t x.group
            ∧ ∀ g k, t.seam g k = (s.seam g k).map (fun z =>
                if g = x.group ∧ k = x.seam then z.withResult y s.storeConfig.seamAcceptLimit else z)))
    ∧ (∀ (x : Search) (d : Int),
      let first := min x.upperRows (x.overlap + 12)
      let upper (i : Nat) : Option (List Byte) :=
        let r : Int := (x.upperRows : Int) - x.overlap + d + i
        if (x.upperRows : Int) - first ≤ r ∧ r < x.upperRows then x.taken[(r - (x.upperRows - first)).toNat]?.join else none
      let lower (i : Nat) : Option (List Byte) := x.taken[first + i]?.join
      let pairs := (List.range x.overlap).filter (fun i => (upper i).isSome && (lower i).isSome)
      x.scoreAt d = if pairs = [] then none else some
        { shift := d, pairs := pairs.length
          sum := (pairs.map (fun i => greyDistance ((upper i).getD []) ((lower i).getD []))).sum })
    ∧ (∀ (x : Search) (b : ShiftScore), x.best = some b →
        x.scoreAt b.shift = some b ∧ 0 < b.pairs ∧ -12 ≤ b.shift ∧ b.shift ≤ 12
          ∧ ∀ (d : Int) (y : ShiftScore), -12 ≤ d → d ≤ 12 → x.scoreAt d = some y →
            b.sum * y.pairs < y.sum * b.pairs
              ∨ b.sum * y.pairs = y.sum * b.pairs
                ∧ (b.shift.natAbs < d.natAbs ∨ b.shift.natAbs = d.natAbs ∧ b.shift ≤ d))
    ∧ (∀ x : Search, x.best = none → ∀ d : Int, -12 ≤ d → d ≤ 12 → x.scoreAt d = none)
    ∧ ∀ (m : Seam) (x : Search) (limit : Nat),
      (x.best = none → m.withResult x limit = { m with state := .weak, adjustment := 0, score := none })
        ∧ ∀ b, x.best = some b →
          let score := 16 * b.sum / (b.pairs * drumWidth x.drum)
          (4 ≤ b.pairs → b.sum ≤ limit * (b.pairs * drumWidth x.drum) →
              m.withResult x limit = { m with state := .found, adjustment := b.shift, score := some score })
            ∧ (b.pairs < 4 ∨ limit * (b.pairs * drumWidth x.drum) < b.sum →
              m.withResult x limit = { m with state := .weak, adjustment := 0, score := some score })

/-! ### Invariants of every step -/

/-- Every step keeps picture memory in its canonical form, each NOTICE line as R170 says, each pending set in the order of R171
with one pair for a kind and origin (R169), and the three queues within their 8 places (R106, R116, R127). -/
def Obligations.StepsKeepMemoryNoticesAndQueues : Prop :=
  ∀ s t : State, s.memoryOk → s.noticesOk → s.queuesOk → step s = .next t →
    t.memoryOk ∧ t.noticesOk ∧ t.queuesOk

/-- Every step keeps each ring within its 16 records, its STOP marker the newest and only once the stream has ended, and
empty while its source is not bound (R29, R34, R42); and each count of consecutive rejections within 8 (R40). -/
def Obligations.StepsKeepTheRings : Prop :=
  (∀ s t : State, s.ringsOk → step s = .next t → t.ringsOk)
    ∧ ∀ s t : State, (∀ i, (s.source i).rejections ≤ 8) → step s = .next t → ∀ i, (t.source i).rejections ≤ 8

/-- Every step keeps a source joined to a frame exactly while the frame is RECEIVING, its pass within its state's range, and
its counts those of its row map (R69, R75, R76); and each view that a frame names with that frame in its record and the number
of cursors open on the frame through PREVIOUS, of which a frame without a view has none (R88, R91). It keeps a frame a member
of a section exactly where it is the section's bound frame, a FREE one of none, and an UNDEFINED group without sections (R97,
R100). -/
def Obligations.StepsKeepTheFrameRecords : Prop :=
  (∀ s t : State, s.framesOk → step s = .next t → t.framesOk)
    ∧ (∀ s t : State, s.viewsOk → step s = .next t → t.viewsOk)
    ∧ ∀ s t : State, s.sectionsOk → step s = .next t → t.sectionsOk

/-- Every step leaves nothing that only waits for its end (the model's reading, log 12), and keeps a read command in progress
only on a port that is EXECUTING, on one of its two cursors. -/
def Obligations.StepsLeaveNothingWaiting : Prop :=
  (∀ s t : State, s.atRest → step s = .next t → t.atRest) ∧ ∀ s t : State, s.jobsOk → step s = .next t → t.jobsOk
end

