-- ==== Sys2Proof/Laws/Memory.lean ====
section
/-! SUPPORT. Picture memory: the canonical form is kept by every operation on it, and a write is read back. -/

namespace Sys2Proof.Machine

/-- The canonical form says that addresses strictly rise. -/
theorem Memory.wf_iff_pairwise : ∀ m : List Host.Cell, Memory.wf m = true ↔ m.Pairwise (fun a b => a.1 < b.1)
  | [] => by simp [Memory.wf]
  | [a] => by simp [Memory.wf]
  | a :: b :: rest => by
    rw [Memory.wf, Bool.and_eq_true, decide_eq_true_eq, Memory.wf_iff_pairwise (b :: rest), List.pairwise_cons (a := a)]
    constructor
    · rintro ⟨hab, h⟩
      refine ⟨fun c hc => ?_, h⟩
      rcases List.mem_cons.mp hc with rfl | hc
      · exact hab
      · exact lt_trans hab ((List.pairwise_cons.mp h).1 c hc)
    · rintro ⟨h, hr⟩
      exact ⟨h b List.mem_cons_self, hr⟩

/-- The cells of a store lie from its address on, within its length, one for each byte. -/
theorem mem_cellsFrom {a : Nat} {bytes : List Byte} {c : Host.Cell} (h : c ∈ cellsFrom a bytes) :
    a ≤ c.1 ∧ c.1 < a + bytes.length := by
  induction bytes generalizing a with
  | nil => simp [cellsFrom] at h
  | cons b bs ih =>
    rcases List.mem_cons.mp h with rfl | h
    · simp
    · have := ih h
      simp only [List.length_cons]
      omega

theorem cellsFrom_pairwise (a : Nat) (bytes : List Byte) :
    (cellsFrom a bytes).Pairwise (fun x y => x.1 < y.1) := by
  induction bytes generalizing a with
  | nil => exact List.Pairwise.nil
  | cons b bs ih =>
    refine List.pairwise_cons.mpr ⟨fun c hc => ?_, ih (a + 1)⟩
    have := (mem_cellsFrom hc).1
    show a < c.1
    omega

/-- A write keeps the canonical form. -/
theorem memoryWrite_wf {m : List Host.Cell} (h : Memory.wf m = true) (a : Nat) (bytes : List Byte) :
    Memory.wf (memoryWrite m a bytes) = true := by
  rw [Memory.wf_iff_pairwise] at h ⊢
  unfold memoryWrite
  refine List.pairwise_append.mpr ⟨List.pairwise_append.mpr ⟨h.filter _, cellsFrom_pairwise a bytes, ?_⟩, h.filter _, ?_⟩
  · intro x hx y hy
    have := (mem_cellsFrom hy).1
    have : x.1 < a := by simpa using (List.mem_filter.mp hx).2
    omega
  · intro x hx y hy
    have hy : a + bytes.length ≤ y.1 := by simpa using (List.mem_filter.mp hy).2
    rcases List.mem_append.mp hx with hx | hx
    · have : x.1 < a := by simpa using (List.mem_filter.mp hx).2
      omega
    · have := (mem_cellsFrom hx).2
      omega

theorem memoryRead_append (m m' : List Host.Cell) (a : Nat) :
    memoryRead (m ++ m') a = (memoryRead m a).or (memoryRead m' a) := by
  unfold memoryRead
  rw [List.find?_append]
  cases m.find? (fun c => c.1 == a) <;> simp

/-- An address that no cell of a list has reads as nothing. -/
theorem memoryRead_eq_none {m : List Host.Cell} {a : Nat} (h : ∀ c ∈ m, c.1 ≠ a) : memoryRead m a = none := by
  unfold memoryRead
  rw [List.find?_eq_none.mpr (fun c hc => by simpa using h c hc)]
  rfl

/-- Cells that all lie on one side of the addresses a filter keeps do not change what is read there. -/
theorem memoryRead_filter {m : List Host.Cell} {a : Nat} {p : Host.Cell → Bool} (h : ∀ c : Host.Cell, c.1 = a → p c = true) :
    memoryRead (m.filter p) a = memoryRead m a := by
  unfold memoryRead
  rw [List.find?_filter]
  congr 2
  funext c
  by_cases hc : c.1 = a
  · simp [hc, h c hc]
  · simp [hc]

theorem memoryRead_cellsFrom (a : Nat) (bytes : List Byte) (b : Nat) (h : a ≤ b) (hb : b < a + bytes.length) :
    memoryRead (cellsFrom a bytes) b = some (bytes.getD (b - a) 0#8) := by
  induction bytes generalizing a with
  | nil => simp at hb; omega
  | cons x xs ih =>
    by_cases hab : a = b
    · subst hab
      simp [memoryRead, cellsFrom]
    · have : memoryRead (cellsFrom a (x :: xs)) b = memoryRead (cellsFrom (a + 1) xs) b := by
        simp [memoryRead, cellsFrom, hab]
      rw [this, ih (a + 1) (by omega) (by simp only [List.length_cons] at hb; omega)]
      have : b - a = b - (a + 1) + 1 := by omega
      rw [this]
      simp

/-- A write is read back where it lies, and every other address reads as before. -/
theorem memoryRead_memoryWrite (m : List Host.Cell) (a b : Nat) (bytes : List Byte) :
    memoryRead (memoryWrite m a bytes) b =
      if a ≤ b ∧ b < a + bytes.length then some (bytes.getD (b - a) 0#8) else memoryRead m b := by
  unfold memoryWrite
  rw [memoryRead_append, memoryRead_append]
  split
  · rename_i h
    rw [memoryRead_eq_none (m := m.filter _), memoryRead_cellsFrom a bytes b h.1 h.2]
    · simp
    · intro c hc
      have : c.1 < a := by simpa using (List.mem_filter.mp hc).2
      omega
  · rename_i h
    have hcells : memoryRead (cellsFrom a bytes) b = none := memoryRead_eq_none (fun c hc hcb => h (hcb ▸ mem_cellsFrom hc))
    rw [hcells]
    by_cases hb : b < a
    · rw [memoryRead_filter (fun c hc => by simpa [hc] using hb),
        memoryRead_eq_none (m := m.filter (fun c => decide (a + bytes.length ≤ c.1)))]
      · simp
      · intro c hc
        have : a + bytes.length ≤ c.1 := by simpa using (List.mem_filter.mp hc).2
        omega
    · rw [memoryRead_eq_none (m := m.filter (fun c => decide (c.1 < a))),
        memoryRead_filter (fun c hc => by simp only [decide_eq_true_eq]; omega)]
      · simp
      · intro c hc
        have : c.1 < a := by simpa using (List.mem_filter.mp hc).2
        omega

/-- What memory holds of a record that has been stored (R114). -/
theorem State.memoryByte_memoryWrite (s : State) (a b : Nat) (bytes : List Byte) :
    State.memoryByte { s with memory := memoryWrite s.memory a bytes } b =
      if a ≤ b ∧ b < a + bytes.length then bytes.getD (b - a) 0#8 else s.memoryByte b := by
  simp only [State.memoryByte, memoryRead_memoryWrite]
  split <;> rfl

/-- Carrying an operation out keeps the canonical form (R120, R121). -/
theorem State.storeRecord_memoryOk {s : State} (h : s.memoryOk) (o : WriteOp) : (s.storeRecord o).memoryOk := by
  unfold State.storeRecord
  cases o.kind <;> exact memoryWrite_wf h _ _

theorem State.reset_memoryOk : State.reset.memoryOk := rfl

end Sys2Proof.Machine
end

