-- ==== Sys2Proof/Laws/State.lean ====
section
/-! SUPPORT. State updates: for each table write, the fields it leaves (by rfl), what reading the table gives after it, and
the other tables read through it. -/

namespace Sys2Proof.Machine

/-! ### The fields a table write leaves -/

@[simp] theorem State.setEntry_clock (s : State) (e : EntryId) (x : ScheduleEntry) : (s.setEntry e x).clock = s.clock := rfl
@[simp] theorem State.setEntry_sources (s : State) (e : EntryId) (x : ScheduleEntry) : (s.setEntry e x).sources = s.sources := rfl
@[simp] theorem State.setEntry_pointer (s : State) (e : EntryId) (x : ScheduleEntry) : (s.setEntry e x).pointer = s.pointer := rfl
@[simp] theorem State.setEntry_storeConfig (s : State) (e : EntryId) (x : ScheduleEntry) : (s.setEntry e x).storeConfig = s.storeConfig := rfl
@[simp] theorem State.setEntry_frames (s : State) (e : EntryId) (x : ScheduleEntry) : (s.setEntry e x).frames = s.frames := rfl
@[simp] theorem State.setEntry_views (s : State) (e : EntryId) (x : ScheduleEntry) : (s.setEntry e x).views = s.views := rfl
@[simp] theorem State.setEntry_pool (s : State) (e : EntryId) (x : ScheduleEntry) : (s.setEntry e x).pool = s.pool := rfl
@[simp] theorem State.setEntry_groups (s : State) (e : EntryId) (x : ScheduleEntry) : (s.setEntry e x).groups = s.groups := rfl
@[simp] theorem State.setEntry_seamQueue (s : State) (e : EntryId) (x : ScheduleEntry) : (s.setEntry e x).seamQueue = s.seamQueue := rfl
@[simp] theorem State.setEntry_engine (s : State) (e : EntryId) (x : ScheduleEntry) : (s.setEntry e x).engine = s.engine := rfl
@[simp] theorem State.setEntry_memory (s : State) (e : EntryId) (x : ScheduleEntry) : (s.setEntry e x).memory = s.memory := rfl
@[simp] theorem State.setEntry_writeQueue (s : State) (e : EntryId) (x : ScheduleEntry) : (s.setEntry e x).writeQueue = s.writeQueue := rfl
@[simp] theorem State.setEntry_holders (s : State) (e : EntryId) (x : ScheduleEntry) : (s.setEntry e x).holders = s.holders := rfl
@[simp] theorem State.setEntry_seamHolder (s : State) (e : EntryId) (x : ScheduleEntry) : (s.setEntry e x).seamHolder = s.seamHolder := rfl
@[simp] theorem State.setEntry_readPointer (s : State) (e : EntryId) (x : ScheduleEntry) : (s.setEntry e x).readPointer = s.readPointer := rfl
@[simp] theorem State.setEntry_issueCount (s : State) (e : EntryId) (x : ScheduleEntry) : (s.setEntry e x).issueCount = s.issueCount := rfl
@[simp] theorem State.setEntry_answerFloor (s : State) (e : EntryId) (x : ScheduleEntry) : (s.setEntry e x).answerFloor = s.answerFloor := rfl
@[simp] theorem State.setEntry_late (s : State) (e : EntryId) (x : ScheduleEntry) : (s.setEntry e x).late = s.late := rfl
@[simp] theorem State.setEntry_errors (s : State) (e : EntryId) (x : ScheduleEntry) : (s.setEntry e x).errors = s.errors := rfl
@[simp] theorem State.setEntry_logCounter (s : State) (e : EntryId) (x : ScheduleEntry) : (s.setEntry e x).logCounter = s.logCounter := rfl
@[simp] theorem State.setEntry_cursors (s : State) (e : EntryId) (x : ScheduleEntry) : (s.setEntry e x).cursors = s.cursors := rfl
@[simp] theorem State.setEntry_reservations (s : State) (e : EntryId) (x : ScheduleEntry) : (s.setEntry e x).reservations = s.reservations := rfl
@[simp] theorem State.setEntry_clients (s : State) (e : EntryId) (x : ScheduleEntry) : (s.setEntry e x).clients = s.clients := rfl
@[simp] theorem State.setEntry_ports (s : State) (e : EntryId) (x : ScheduleEntry) : (s.setEntry e x).ports = s.ports := rfl
@[simp] theorem State.setEntry_powerOns (s : State) (e : EntryId) (x : ScheduleEntry) : (s.setEntry e x).powerOns = s.powerOns := rfl
@[simp] theorem State.setEntry_freeDraws (s : State) (e : EntryId) (x : ScheduleEntry) : (s.setEntry e x).freeDraws = s.freeDraws := rfl
@[simp] theorem State.setEntry_pending (s : State) (e : EntryId) (x : ScheduleEntry) : (s.setEntry e x).pending = s.pending := rfl
@[simp] theorem State.setSource_clock (s : State) (i : SourceId) (x : Source) : (s.setSource i x).clock = s.clock := rfl
@[simp] theorem State.setSource_schedule (s : State) (i : SourceId) (x : Source) : (s.setSource i x).schedule = s.schedule := rfl
@[simp] theorem State.setSource_pointer (s : State) (i : SourceId) (x : Source) : (s.setSource i x).pointer = s.pointer := rfl
@[simp] theorem State.setSource_storeConfig (s : State) (i : SourceId) (x : Source) : (s.setSource i x).storeConfig = s.storeConfig := rfl
@[simp] theorem State.setSource_frames (s : State) (i : SourceId) (x : Source) : (s.setSource i x).frames = s.frames := rfl
@[simp] theorem State.setSource_views (s : State) (i : SourceId) (x : Source) : (s.setSource i x).views = s.views := rfl
@[simp] theorem State.setSource_pool (s : State) (i : SourceId) (x : Source) : (s.setSource i x).pool = s.pool := rfl
@[simp] theorem State.setSource_groups (s : State) (i : SourceId) (x : Source) : (s.setSource i x).groups = s.groups := rfl
@[simp] theorem State.setSource_seamQueue (s : State) (i : SourceId) (x : Source) : (s.setSource i x).seamQueue = s.seamQueue := rfl
@[simp] theorem State.setSource_engine (s : State) (i : SourceId) (x : Source) : (s.setSource i x).engine = s.engine := rfl
@[simp] theorem State.setSource_memory (s : State) (i : SourceId) (x : Source) : (s.setSource i x).memory = s.memory := rfl
@[simp] theorem State.setSource_writeQueue (s : State) (i : SourceId) (x : Source) : (s.setSource i x).writeQueue = s.writeQueue := rfl
@[simp] theorem State.setSource_holders (s : State) (i : SourceId) (x : Source) : (s.setSource i x).holders = s.holders := rfl
@[simp] theorem State.setSource_seamHolder (s : State) (i : SourceId) (x : Source) : (s.setSource i x).seamHolder = s.seamHolder := rfl
@[simp] theorem State.setSource_readPointer (s : State) (i : SourceId) (x : Source) : (s.setSource i x).readPointer = s.readPointer := rfl
@[simp] theorem State.setSource_issueCount (s : State) (i : SourceId) (x : Source) : (s.setSource i x).issueCount = s.issueCount := rfl
@[simp] theorem State.setSource_answerFloor (s : State) (i : SourceId) (x : Source) : (s.setSource i x).answerFloor = s.answerFloor := rfl
@[simp] theorem State.setSource_late (s : State) (i : SourceId) (x : Source) : (s.setSource i x).late = s.late := rfl
@[simp] theorem State.setSource_errors (s : State) (i : SourceId) (x : Source) : (s.setSource i x).errors = s.errors := rfl
@[simp] theorem State.setSource_logCounter (s : State) (i : SourceId) (x : Source) : (s.setSource i x).logCounter = s.logCounter := rfl
@[simp] theorem State.setSource_cursors (s : State) (i : SourceId) (x : Source) : (s.setSource i x).cursors = s.cursors := rfl
@[simp] theorem State.setSource_reservations (s : State) (i : SourceId) (x : Source) : (s.setSource i x).reservations = s.reservations := rfl
@[simp] theorem State.setSource_clients (s : State) (i : SourceId) (x : Source) : (s.setSource i x).clients = s.clients := rfl
@[simp] theorem State.setSource_ports (s : State) (i : SourceId) (x : Source) : (s.setSource i x).ports = s.ports := rfl
@[simp] theorem State.setSource_powerOns (s : State) (i : SourceId) (x : Source) : (s.setSource i x).powerOns = s.powerOns := rfl
@[simp] theorem State.setSource_freeDraws (s : State) (i : SourceId) (x : Source) : (s.setSource i x).freeDraws = s.freeDraws := rfl
@[simp] theorem State.setSource_pending (s : State) (i : SourceId) (x : Source) : (s.setSource i x).pending = s.pending := rfl
@[simp] theorem State.setFrame_clock (s : State) (f : FrameId) (x : Frame) : (s.setFrame f x).clock = s.clock := rfl
@[simp] theorem State.setFrame_schedule (s : State) (f : FrameId) (x : Frame) : (s.setFrame f x).schedule = s.schedule := rfl
@[simp] theorem State.setFrame_sources (s : State) (f : FrameId) (x : Frame) : (s.setFrame f x).sources = s.sources := rfl
@[simp] theorem State.setFrame_pointer (s : State) (f : FrameId) (x : Frame) : (s.setFrame f x).pointer = s.pointer := rfl
@[simp] theorem State.setFrame_storeConfig (s : State) (f : FrameId) (x : Frame) : (s.setFrame f x).storeConfig = s.storeConfig := rfl
@[simp] theorem State.setFrame_views (s : State) (f : FrameId) (x : Frame) : (s.setFrame f x).views = s.views := rfl
@[simp] theorem State.setFrame_pool (s : State) (f : FrameId) (x : Frame) : (s.setFrame f x).pool = s.pool := rfl
@[simp] theorem State.setFrame_groups (s : State) (f : FrameId) (x : Frame) : (s.setFrame f x).groups = s.groups := rfl
@[simp] theorem State.setFrame_seamQueue (s : State) (f : FrameId) (x : Frame) : (s.setFrame f x).seamQueue = s.seamQueue := rfl
@[simp] theorem State.setFrame_engine (s : State) (f : FrameId) (x : Frame) : (s.setFrame f x).engine = s.engine := rfl
@[simp] theorem State.setFrame_memory (s : State) (f : FrameId) (x : Frame) : (s.setFrame f x).memory = s.memory := rfl
@[simp] theorem State.setFrame_writeQueue (s : State) (f : FrameId) (x : Frame) : (s.setFrame f x).writeQueue = s.writeQueue := rfl
@[simp] theorem State.setFrame_holders (s : State) (f : FrameId) (x : Frame) : (s.setFrame f x).holders = s.holders := rfl
@[simp] theorem State.setFrame_seamHolder (s : State) (f : FrameId) (x : Frame) : (s.setFrame f x).seamHolder = s.seamHolder := rfl
@[simp] theorem State.setFrame_readPointer (s : State) (f : FrameId) (x : Frame) : (s.setFrame f x).readPointer = s.readPointer := rfl
@[simp] theorem State.setFrame_issueCount (s : State) (f : FrameId) (x : Frame) : (s.setFrame f x).issueCount = s.issueCount := rfl
@[simp] theorem State.setFrame_answerFloor (s : State) (f : FrameId) (x : Frame) : (s.setFrame f x).answerFloor = s.answerFloor := rfl
@[simp] theorem State.setFrame_late (s : State) (f : FrameId) (x : Frame) : (s.setFrame f x).late = s.late := rfl
@[simp] theorem State.setFrame_errors (s : State) (f : FrameId) (x : Frame) : (s.setFrame f x).errors = s.errors := rfl
@[simp] theorem State.setFrame_logCounter (s : State) (f : FrameId) (x : Frame) : (s.setFrame f x).logCounter = s.logCounter := rfl
@[simp] theorem State.setFrame_cursors (s : State) (f : FrameId) (x : Frame) : (s.setFrame f x).cursors = s.cursors := rfl
@[simp] theorem State.setFrame_reservations (s : State) (f : FrameId) (x : Frame) : (s.setFrame f x).reservations = s.reservations := rfl
@[simp] theorem State.setFrame_clients (s : State) (f : FrameId) (x : Frame) : (s.setFrame f x).clients = s.clients := rfl
@[simp] theorem State.setFrame_ports (s : State) (f : FrameId) (x : Frame) : (s.setFrame f x).ports = s.ports := rfl
@[simp] theorem State.setFrame_powerOns (s : State) (f : FrameId) (x : Frame) : (s.setFrame f x).powerOns = s.powerOns := rfl
@[simp] theorem State.setFrame_freeDraws (s : State) (f : FrameId) (x : Frame) : (s.setFrame f x).freeDraws = s.freeDraws := rfl
@[simp] theorem State.setFrame_pending (s : State) (f : FrameId) (x : Frame) : (s.setFrame f x).pending = s.pending := rfl
@[simp] theorem State.setView_clock (s : State) (v : ViewId) (x : Option View) : (s.setView v x).clock = s.clock := rfl
@[simp] theorem State.setView_schedule (s : State) (v : ViewId) (x : Option View) : (s.setView v x).schedule = s.schedule := rfl
@[simp] theorem State.setView_sources (s : State) (v : ViewId) (x : Option View) : (s.setView v x).sources = s.sources := rfl
@[simp] theorem State.setView_pointer (s : State) (v : ViewId) (x : Option View) : (s.setView v x).pointer = s.pointer := rfl
@[simp] theorem State.setView_storeConfig (s : State) (v : ViewId) (x : Option View) : (s.setView v x).storeConfig = s.storeConfig := rfl
@[simp] theorem State.setView_frames (s : State) (v : ViewId) (x : Option View) : (s.setView v x).frames = s.frames := rfl
@[simp] theorem State.setView_pool (s : State) (v : ViewId) (x : Option View) : (s.setView v x).pool = s.pool := rfl
@[simp] theorem State.setView_groups (s : State) (v : ViewId) (x : Option View) : (s.setView v x).groups = s.groups := rfl
@[simp] theorem State.setView_seamQueue (s : State) (v : ViewId) (x : Option View) : (s.setView v x).seamQueue = s.seamQueue := rfl
@[simp] theorem State.setView_engine (s : State) (v : ViewId) (x : Option View) : (s.setView v x).engine = s.engine := rfl
@[simp] theorem State.setView_memory (s : State) (v : ViewId) (x : Option View) : (s.setView v x).memory = s.memory := rfl
@[simp] theorem State.setView_writeQueue (s : State) (v : ViewId) (x : Option View) : (s.setView v x).writeQueue = s.writeQueue := rfl
@[simp] theorem State.setView_holders (s : State) (v : ViewId) (x : Option View) : (s.setView v x).holders = s.holders := rfl
@[simp] theorem State.setView_seamHolder (s : State) (v : ViewId) (x : Option View) : (s.setView v x).seamHolder = s.seamHolder := rfl
@[simp] theorem State.setView_readPointer (s : State) (v : ViewId) (x : Option View) : (s.setView v x).readPointer = s.readPointer := rfl
@[simp] theorem State.setView_issueCount (s : State) (v : ViewId) (x : Option View) : (s.setView v x).issueCount = s.issueCount := rfl
@[simp] theorem State.setView_answerFloor (s : State) (v : ViewId) (x : Option View) : (s.setView v x).answerFloor = s.answerFloor := rfl
@[simp] theorem State.setView_late (s : State) (v : ViewId) (x : Option View) : (s.setView v x).late = s.late := rfl
@[simp] theorem State.setView_errors (s : State) (v : ViewId) (x : Option View) : (s.setView v x).errors = s.errors := rfl
@[simp] theorem State.setView_logCounter (s : State) (v : ViewId) (x : Option View) : (s.setView v x).logCounter = s.logCounter := rfl
@[simp] theorem State.setView_cursors (s : State) (v : ViewId) (x : Option View) : (s.setView v x).cursors = s.cursors := rfl
@[simp] theorem State.setView_reservations (s : State) (v : ViewId) (x : Option View) : (s.setView v x).reservations = s.reservations := rfl
@[simp] theorem State.setView_clients (s : State) (v : ViewId) (x : Option View) : (s.setView v x).clients = s.clients := rfl
@[simp] theorem State.setView_ports (s : State) (v : ViewId) (x : Option View) : (s.setView v x).ports = s.ports := rfl
@[simp] theorem State.setView_powerOns (s : State) (v : ViewId) (x : Option View) : (s.setView v x).powerOns = s.powerOns := rfl
@[simp] theorem State.setView_freeDraws (s : State) (v : ViewId) (x : Option View) : (s.setView v x).freeDraws = s.freeDraws := rfl
@[simp] theorem State.setView_pending (s : State) (v : ViewId) (x : Option View) : (s.setView v x).pending = s.pending := rfl
@[simp] theorem State.setPoolRow_clock (s : State) (p : PoolRow) (x : Option PoolHold) : (s.setPoolRow p x).clock = s.clock := rfl
@[simp] theorem State.setPoolRow_schedule (s : State) (p : PoolRow) (x : Option PoolHold) : (s.setPoolRow p x).schedule = s.schedule := rfl
@[simp] theorem State.setPoolRow_sources (s : State) (p : PoolRow) (x : Option PoolHold) : (s.setPoolRow p x).sources = s.sources := rfl
@[simp] theorem State.setPoolRow_pointer (s : State) (p : PoolRow) (x : Option PoolHold) : (s.setPoolRow p x).pointer = s.pointer := rfl
@[simp] theorem State.setPoolRow_storeConfig (s : State) (p : PoolRow) (x : Option PoolHold) : (s.setPoolRow p x).storeConfig = s.storeConfig := rfl
@[simp] theorem State.setPoolRow_frames (s : State) (p : PoolRow) (x : Option PoolHold) : (s.setPoolRow p x).frames = s.frames := rfl
@[simp] theorem State.setPoolRow_views (s : State) (p : PoolRow) (x : Option PoolHold) : (s.setPoolRow p x).views = s.views := rfl
@[simp] theorem State.setPoolRow_groups (s : State) (p : PoolRow) (x : Option PoolHold) : (s.setPoolRow p x).groups = s.groups := rfl
@[simp] theorem State.setPoolRow_seamQueue (s : State) (p : PoolRow) (x : Option PoolHold) : (s.setPoolRow p x).seamQueue = s.seamQueue := rfl
@[simp] theorem State.setPoolRow_engine (s : State) (p : PoolRow) (x : Option PoolHold) : (s.setPoolRow p x).engine = s.engine := rfl
@[simp] theorem State.setPoolRow_memory (s : State) (p : PoolRow) (x : Option PoolHold) : (s.setPoolRow p x).memory = s.memory := rfl
@[simp] theorem State.setPoolRow_writeQueue (s : State) (p : PoolRow) (x : Option PoolHold) : (s.setPoolRow p x).writeQueue = s.writeQueue := rfl
@[simp] theorem State.setPoolRow_holders (s : State) (p : PoolRow) (x : Option PoolHold) : (s.setPoolRow p x).holders = s.holders := rfl
@[simp] theorem State.setPoolRow_seamHolder (s : State) (p : PoolRow) (x : Option PoolHold) : (s.setPoolRow p x).seamHolder = s.seamHolder := rfl
@[simp] theorem State.setPoolRow_readPointer (s : State) (p : PoolRow) (x : Option PoolHold) : (s.setPoolRow p x).readPointer = s.readPointer := rfl
@[simp] theorem State.setPoolRow_issueCount (s : State) (p : PoolRow) (x : Option PoolHold) : (s.setPoolRow p x).issueCount = s.issueCount := rfl
@[simp] theorem State.setPoolRow_answerFloor (s : State) (p : PoolRow) (x : Option PoolHold) : (s.setPoolRow p x).answerFloor = s.answerFloor := rfl
@[simp] theorem State.setPoolRow_late (s : State) (p : PoolRow) (x : Option PoolHold) : (s.setPoolRow p x).late = s.late := rfl
@[simp] theorem State.setPoolRow_errors (s : State) (p : PoolRow) (x : Option PoolHold) : (s.setPoolRow p x).errors = s.errors := rfl
@[simp] theorem State.setPoolRow_logCounter (s : State) (p : PoolRow) (x : Option PoolHold) : (s.setPoolRow p x).logCounter = s.logCounter := rfl
@[simp] theorem State.setPoolRow_cursors (s : State) (p : PoolRow) (x : Option PoolHold) : (s.setPoolRow p x).cursors = s.cursors := rfl
@[simp] theorem State.setPoolRow_reservations (s : State) (p : PoolRow) (x : Option PoolHold) : (s.setPoolRow p x).reservations = s.reservations := rfl
@[simp] theorem State.setPoolRow_clients (s : State) (p : PoolRow) (x : Option PoolHold) : (s.setPoolRow p x).clients = s.clients := rfl
@[simp] theorem State.setPoolRow_ports (s : State) (p : PoolRow) (x : Option PoolHold) : (s.setPoolRow p x).ports = s.ports := rfl
@[simp] theorem State.setPoolRow_powerOns (s : State) (p : PoolRow) (x : Option PoolHold) : (s.setPoolRow p x).powerOns = s.powerOns := rfl
@[simp] theorem State.setPoolRow_freeDraws (s : State) (p : PoolRow) (x : Option PoolHold) : (s.setPoolRow p x).freeDraws = s.freeDraws := rfl
@[simp] theorem State.setPoolRow_pending (s : State) (p : PoolRow) (x : Option PoolHold) : (s.setPoolRow p x).pending = s.pending := rfl
@[simp] theorem State.setGroup_clock (s : State) (g : GroupId) (x : Group) : (s.setGroup g x).clock = s.clock := rfl
@[simp] theorem State.setGroup_schedule (s : State) (g : GroupId) (x : Group) : (s.setGroup g x).schedule = s.schedule := rfl
@[simp] theorem State.setGroup_sources (s : State) (g : GroupId) (x : Group) : (s.setGroup g x).sources = s.sources := rfl
@[simp] theorem State.setGroup_pointer (s : State) (g : GroupId) (x : Group) : (s.setGroup g x).pointer = s.pointer := rfl
@[simp] theorem State.setGroup_storeConfig (s : State) (g : GroupId) (x : Group) : (s.setGroup g x).storeConfig = s.storeConfig := rfl
@[simp] theorem State.setGroup_frames (s : State) (g : GroupId) (x : Group) : (s.setGroup g x).frames = s.frames := rfl
@[simp] theorem State.setGroup_views (s : State) (g : GroupId) (x : Group) : (s.setGroup g x).views = s.views := rfl
@[simp] theorem State.setGroup_pool (s : State) (g : GroupId) (x : Group) : (s.setGroup g x).pool = s.pool := rfl
@[simp] theorem State.setGroup_seamQueue (s : State) (g : GroupId) (x : Group) : (s.setGroup g x).seamQueue = s.seamQueue := rfl
@[simp] theorem State.setGroup_engine (s : State) (g : GroupId) (x : Group) : (s.setGroup g x).engine = s.engine := rfl
@[simp] theorem State.setGroup_memory (s : State) (g : GroupId) (x : Group) : (s.setGroup g x).memory = s.memory := rfl
@[simp] theorem State.setGroup_writeQueue (s : State) (g : GroupId) (x : Group) : (s.setGroup g x).writeQueue = s.writeQueue := rfl
@[simp] theorem State.setGroup_holders (s : State) (g : GroupId) (x : Group) : (s.setGroup g x).holders = s.holders := rfl
@[simp] theorem State.setGroup_seamHolder (s : State) (g : GroupId) (x : Group) : (s.setGroup g x).seamHolder = s.seamHolder := rfl
@[simp] theorem State.setGroup_readPointer (s : State) (g : GroupId) (x : Group) : (s.setGroup g x).readPointer = s.readPointer := rfl
@[simp] theorem State.setGroup_issueCount (s : State) (g : GroupId) (x : Group) : (s.setGroup g x).issueCount = s.issueCount := rfl
@[simp] theorem State.setGroup_answerFloor (s : State) (g : GroupId) (x : Group) : (s.setGroup g x).answerFloor = s.answerFloor := rfl
@[simp] theorem State.setGroup_late (s : State) (g : GroupId) (x : Group) : (s.setGroup g x).late = s.late := rfl
@[simp] theorem State.setGroup_errors (s : State) (g : GroupId) (x : Group) : (s.setGroup g x).errors = s.errors := rfl
@[simp] theorem State.setGroup_logCounter (s : State) (g : GroupId) (x : Group) : (s.setGroup g x).logCounter = s.logCounter := rfl
@[simp] theorem State.setGroup_cursors (s : State) (g : GroupId) (x : Group) : (s.setGroup g x).cursors = s.cursors := rfl
@[simp] theorem State.setGroup_reservations (s : State) (g : GroupId) (x : Group) : (s.setGroup g x).reservations = s.reservations := rfl
@[simp] theorem State.setGroup_clients (s : State) (g : GroupId) (x : Group) : (s.setGroup g x).clients = s.clients := rfl
@[simp] theorem State.setGroup_ports (s : State) (g : GroupId) (x : Group) : (s.setGroup g x).ports = s.ports := rfl
@[simp] theorem State.setGroup_powerOns (s : State) (g : GroupId) (x : Group) : (s.setGroup g x).powerOns = s.powerOns := rfl
@[simp] theorem State.setGroup_freeDraws (s : State) (g : GroupId) (x : Group) : (s.setGroup g x).freeDraws = s.freeDraws := rfl
@[simp] theorem State.setGroup_pending (s : State) (g : GroupId) (x : Group) : (s.setGroup g x).pending = s.pending := rfl
@[simp] theorem State.setCursor_clock (s : State) (c : CursorId) (x : Cursor) : (s.setCursor c x).clock = s.clock := rfl
@[simp] theorem State.setCursor_schedule (s : State) (c : CursorId) (x : Cursor) : (s.setCursor c x).schedule = s.schedule := rfl
@[simp] theorem State.setCursor_sources (s : State) (c : CursorId) (x : Cursor) : (s.setCursor c x).sources = s.sources := rfl
@[simp] theorem State.setCursor_pointer (s : State) (c : CursorId) (x : Cursor) : (s.setCursor c x).pointer = s.pointer := rfl
@[simp] theorem State.setCursor_storeConfig (s : State) (c : CursorId) (x : Cursor) : (s.setCursor c x).storeConfig = s.storeConfig := rfl
@[simp] theorem State.setCursor_frames (s : State) (c : CursorId) (x : Cursor) : (s.setCursor c x).frames = s.frames := rfl
@[simp] theorem State.setCursor_views (s : State) (c : CursorId) (x : Cursor) : (s.setCursor c x).views = s.views := rfl
@[simp] theorem State.setCursor_pool (s : State) (c : CursorId) (x : Cursor) : (s.setCursor c x).pool = s.pool := rfl
@[simp] theorem State.setCursor_groups (s : State) (c : CursorId) (x : Cursor) : (s.setCursor c x).groups = s.groups := rfl
@[simp] theorem State.setCursor_seamQueue (s : State) (c : CursorId) (x : Cursor) : (s.setCursor c x).seamQueue = s.seamQueue := rfl
@[simp] theorem State.setCursor_engine (s : State) (c : CursorId) (x : Cursor) : (s.setCursor c x).engine = s.engine := rfl
@[simp] theorem State.setCursor_memory (s : State) (c : CursorId) (x : Cursor) : (s.setCursor c x).memory = s.memory := rfl
@[simp] theorem State.setCursor_writeQueue (s : State) (c : CursorId) (x : Cursor) : (s.setCursor c x).writeQueue = s.writeQueue := rfl
@[simp] theorem State.setCursor_holders (s : State) (c : CursorId) (x : Cursor) : (s.setCursor c x).holders = s.holders := rfl
@[simp] theorem State.setCursor_seamHolder (s : State) (c : CursorId) (x : Cursor) : (s.setCursor c x).seamHolder = s.seamHolder := rfl
@[simp] theorem State.setCursor_readPointer (s : State) (c : CursorId) (x : Cursor) : (s.setCursor c x).readPointer = s.readPointer := rfl
@[simp] theorem State.setCursor_issueCount (s : State) (c : CursorId) (x : Cursor) : (s.setCursor c x).issueCount = s.issueCount := rfl
@[simp] theorem State.setCursor_answerFloor (s : State) (c : CursorId) (x : Cursor) : (s.setCursor c x).answerFloor = s.answerFloor := rfl
@[simp] theorem State.setCursor_late (s : State) (c : CursorId) (x : Cursor) : (s.setCursor c x).late = s.late := rfl
@[simp] theorem State.setCursor_errors (s : State) (c : CursorId) (x : Cursor) : (s.setCursor c x).errors = s.errors := rfl
@[simp] theorem State.setCursor_logCounter (s : State) (c : CursorId) (x : Cursor) : (s.setCursor c x).logCounter = s.logCounter := rfl
@[simp] theorem State.setCursor_reservations (s : State) (c : CursorId) (x : Cursor) : (s.setCursor c x).reservations = s.reservations := rfl
@[simp] theorem State.setCursor_clients (s : State) (c : CursorId) (x : Cursor) : (s.setCursor c x).clients = s.clients := rfl
@[simp] theorem State.setCursor_ports (s : State) (c : CursorId) (x : Cursor) : (s.setCursor c x).ports = s.ports := rfl
@[simp] theorem State.setCursor_powerOns (s : State) (c : CursorId) (x : Cursor) : (s.setCursor c x).powerOns = s.powerOns := rfl
@[simp] theorem State.setCursor_freeDraws (s : State) (c : CursorId) (x : Cursor) : (s.setCursor c x).freeDraws = s.freeDraws := rfl
@[simp] theorem State.setCursor_pending (s : State) (c : CursorId) (x : Cursor) : (s.setCursor c x).pending = s.pending := rfl
@[simp] theorem State.setReservation_clock (s : State) (n : ClientId) (x : Reservation) : (s.setReservation n x).clock = s.clock := rfl
@[simp] theorem State.setReservation_schedule (s : State) (n : ClientId) (x : Reservation) : (s.setReservation n x).schedule = s.schedule := rfl
@[simp] theorem State.setReservation_sources (s : State) (n : ClientId) (x : Reservation) : (s.setReservation n x).sources = s.sources := rfl
@[simp] theorem State.setReservation_pointer (s : State) (n : ClientId) (x : Reservation) : (s.setReservation n x).pointer = s.pointer := rfl
@[simp] theorem State.setReservation_storeConfig (s : State) (n : ClientId) (x : Reservation) : (s.setReservation n x).storeConfig = s.storeConfig := rfl
@[simp] theorem State.setReservation_frames (s : State) (n : ClientId) (x : Reservation) : (s.setReservation n x).frames = s.frames := rfl
@[simp] theorem State.setReservation_views (s : State) (n : ClientId) (x : Reservation) : (s.setReservation n x).views = s.views := rfl
@[simp] theorem State.setReservation_pool (s : State) (n : ClientId) (x : Reservation) : (s.setReservation n x).pool = s.pool := rfl
@[simp] theorem State.setReservation_groups (s : State) (n : ClientId) (x : Reservation) : (s.setReservation n x).groups = s.groups := rfl
@[simp] theorem State.setReservation_seamQueue (s : State) (n : ClientId) (x : Reservation) : (s.setReservation n x).seamQueue = s.seamQueue := rfl
@[simp] theorem State.setReservation_engine (s : State) (n : ClientId) (x : Reservation) : (s.setReservation n x).engine = s.engine := rfl
@[simp] theorem State.setReservation_memory (s : State) (n : ClientId) (x : Reservation) : (s.setReservation n x).memory = s.memory := rfl
@[simp] theorem State.setReservation_writeQueue (s : State) (n : ClientId) (x : Reservation) : (s.setReservation n x).writeQueue = s.writeQueue := rfl
@[simp] theorem State.setReservation_holders (s : State) (n : ClientId) (x : Reservation) : (s.setReservation n x).holders = s.holders := rfl
@[simp] theorem State.setReservation_seamHolder (s : State) (n : ClientId) (x : Reservation) : (s.setReservation n x).seamHolder = s.seamHolder := rfl
@[simp] theorem State.setReservation_readPointer (s : State) (n : ClientId) (x : Reservation) : (s.setReservation n x).readPointer = s.readPointer := rfl
@[simp] theorem State.setReservation_issueCount (s : State) (n : ClientId) (x : Reservation) : (s.setReservation n x).issueCount = s.issueCount := rfl
@[simp] theorem State.setReservation_answerFloor (s : State) (n : ClientId) (x : Reservation) : (s.setReservation n x).answerFloor = s.answerFloor := rfl
@[simp] theorem State.setReservation_late (s : State) (n : ClientId) (x : Reservation) : (s.setReservation n x).late = s.late := rfl
@[simp] theorem State.setReservation_errors (s : State) (n : ClientId) (x : Reservation) : (s.setReservation n x).errors = s.errors := rfl
@[simp] theorem State.setReservation_logCounter (s : State) (n : ClientId) (x : Reservation) : (s.setReservation n x).logCounter = s.logCounter := rfl
@[simp] theorem State.setReservation_cursors (s : State) (n : ClientId) (x : Reservation) : (s.setReservation n x).cursors = s.cursors := rfl
@[simp] theorem State.setReservation_clients (s : State) (n : ClientId) (x : Reservation) : (s.setReservation n x).clients = s.clients := rfl
@[simp] theorem State.setReservation_ports (s : State) (n : ClientId) (x : Reservation) : (s.setReservation n x).ports = s.ports := rfl
@[simp] theorem State.setReservation_powerOns (s : State) (n : ClientId) (x : Reservation) : (s.setReservation n x).powerOns = s.powerOns := rfl
@[simp] theorem State.setReservation_freeDraws (s : State) (n : ClientId) (x : Reservation) : (s.setReservation n x).freeDraws = s.freeDraws := rfl
@[simp] theorem State.setReservation_pending (s : State) (n : ClientId) (x : Reservation) : (s.setReservation n x).pending = s.pending := rfl
@[simp] theorem State.setClient_clock (s : State) (n : ClientId) (x : NoticeClient) : (s.setClient n x).clock = s.clock := rfl
@[simp] theorem State.setClient_schedule (s : State) (n : ClientId) (x : NoticeClient) : (s.setClient n x).schedule = s.schedule := rfl
@[simp] theorem State.setClient_sources (s : State) (n : ClientId) (x : NoticeClient) : (s.setClient n x).sources = s.sources := rfl
@[simp] theorem State.setClient_pointer (s : State) (n : ClientId) (x : NoticeClient) : (s.setClient n x).pointer = s.pointer := rfl
@[simp] theorem State.setClient_storeConfig (s : State) (n : ClientId) (x : NoticeClient) : (s.setClient n x).storeConfig = s.storeConfig := rfl
@[simp] theorem State.setClient_frames (s : State) (n : ClientId) (x : NoticeClient) : (s.setClient n x).frames = s.frames := rfl
@[simp] theorem State.setClient_views (s : State) (n : ClientId) (x : NoticeClient) : (s.setClient n x).views = s.views := rfl
@[simp] theorem State.setClient_pool (s : State) (n : ClientId) (x : NoticeClient) : (s.setClient n x).pool = s.pool := rfl
@[simp] theorem State.setClient_groups (s : State) (n : ClientId) (x : NoticeClient) : (s.setClient n x).groups = s.groups := rfl
@[simp] theorem State.setClient_seamQueue (s : State) (n : ClientId) (x : NoticeClient) : (s.setClient n x).seamQueue = s.seamQueue := rfl
@[simp] theorem State.setClient_engine (s : State) (n : ClientId) (x : NoticeClient) : (s.setClient n x).engine = s.engine := rfl
@[simp] theorem State.setClient_memory (s : State) (n : ClientId) (x : NoticeClient) : (s.setClient n x).memory = s.memory := rfl
@[simp] theorem State.setClient_writeQueue (s : State) (n : ClientId) (x : NoticeClient) : (s.setClient n x).writeQueue = s.writeQueue := rfl
@[simp] theorem State.setClient_holders (s : State) (n : ClientId) (x : NoticeClient) : (s.setClient n x).holders = s.holders := rfl
@[simp] theorem State.setClient_seamHolder (s : State) (n : ClientId) (x : NoticeClient) : (s.setClient n x).seamHolder = s.seamHolder := rfl
@[simp] theorem State.setClient_readPointer (s : State) (n : ClientId) (x : NoticeClient) : (s.setClient n x).readPointer = s.readPointer := rfl
@[simp] theorem State.setClient_issueCount (s : State) (n : ClientId) (x : NoticeClient) : (s.setClient n x).issueCount = s.issueCount := rfl
@[simp] theorem State.setClient_answerFloor (s : State) (n : ClientId) (x : NoticeClient) : (s.setClient n x).answerFloor = s.answerFloor := rfl
@[simp] theorem State.setClient_late (s : State) (n : ClientId) (x : NoticeClient) : (s.setClient n x).late = s.late := rfl
@[simp] theorem State.setClient_errors (s : State) (n : ClientId) (x : NoticeClient) : (s.setClient n x).errors = s.errors := rfl
@[simp] theorem State.setClient_logCounter (s : State) (n : ClientId) (x : NoticeClient) : (s.setClient n x).logCounter = s.logCounter := rfl
@[simp] theorem State.setClient_cursors (s : State) (n : ClientId) (x : NoticeClient) : (s.setClient n x).cursors = s.cursors := rfl
@[simp] theorem State.setClient_reservations (s : State) (n : ClientId) (x : NoticeClient) : (s.setClient n x).reservations = s.reservations := rfl
@[simp] theorem State.setClient_ports (s : State) (n : ClientId) (x : NoticeClient) : (s.setClient n x).ports = s.ports := rfl
@[simp] theorem State.setClient_powerOns (s : State) (n : ClientId) (x : NoticeClient) : (s.setClient n x).powerOns = s.powerOns := rfl
@[simp] theorem State.setClient_freeDraws (s : State) (n : ClientId) (x : NoticeClient) : (s.setClient n x).freeDraws = s.freeDraws := rfl
@[simp] theorem State.setClient_pending (s : State) (n : ClientId) (x : NoticeClient) : (s.setClient n x).pending = s.pending := rfl
@[simp] theorem State.setPort_clock (s : State) (n : ClientId) (x : Port) : (s.setPort n x).clock = s.clock := rfl
@[simp] theorem State.setPort_schedule (s : State) (n : ClientId) (x : Port) : (s.setPort n x).schedule = s.schedule := rfl
@[simp] theorem State.setPort_sources (s : State) (n : ClientId) (x : Port) : (s.setPort n x).sources = s.sources := rfl
@[simp] theorem State.setPort_pointer (s : State) (n : ClientId) (x : Port) : (s.setPort n x).pointer = s.pointer := rfl
@[simp] theorem State.setPort_storeConfig (s : State) (n : ClientId) (x : Port) : (s.setPort n x).storeConfig = s.storeConfig := rfl
@[simp] theorem State.setPort_frames (s : State) (n : ClientId) (x : Port) : (s.setPort n x).frames = s.frames := rfl
@[simp] theorem State.setPort_views (s : State) (n : ClientId) (x : Port) : (s.setPort n x).views = s.views := rfl
@[simp] theorem State.setPort_pool (s : State) (n : ClientId) (x : Port) : (s.setPort n x).pool = s.pool := rfl
@[simp] theorem State.setPort_groups (s : State) (n : ClientId) (x : Port) : (s.setPort n x).groups = s.groups := rfl
@[simp] theorem State.setPort_seamQueue (s : State) (n : ClientId) (x : Port) : (s.setPort n x).seamQueue = s.seamQueue := rfl
@[simp] theorem State.setPort_engine (s : State) (n : ClientId) (x : Port) : (s.setPort n x).engine = s.engine := rfl
@[simp] theorem State.setPort_memory (s : State) (n : ClientId) (x : Port) : (s.setPort n x).memory = s.memory := rfl
@[simp] theorem State.setPort_writeQueue (s : State) (n : ClientId) (x : Port) : (s.setPort n x).writeQueue = s.writeQueue := rfl
@[simp] theorem State.setPort_holders (s : State) (n : ClientId) (x : Port) : (s.setPort n x).holders = s.holders := rfl
@[simp] theorem State.setPort_seamHolder (s : State) (n : ClientId) (x : Port) : (s.setPort n x).seamHolder = s.seamHolder := rfl
@[simp] theorem State.setPort_readPointer (s : State) (n : ClientId) (x : Port) : (s.setPort n x).readPointer = s.readPointer := rfl
@[simp] theorem State.setPort_issueCount (s : State) (n : ClientId) (x : Port) : (s.setPort n x).issueCount = s.issueCount := rfl
@[simp] theorem State.setPort_answerFloor (s : State) (n : ClientId) (x : Port) : (s.setPort n x).answerFloor = s.answerFloor := rfl
@[simp] theorem State.setPort_late (s : State) (n : ClientId) (x : Port) : (s.setPort n x).late = s.late := rfl
@[simp] theorem State.setPort_errors (s : State) (n : ClientId) (x : Port) : (s.setPort n x).errors = s.errors := rfl
@[simp] theorem State.setPort_logCounter (s : State) (n : ClientId) (x : Port) : (s.setPort n x).logCounter = s.logCounter := rfl
@[simp] theorem State.setPort_cursors (s : State) (n : ClientId) (x : Port) : (s.setPort n x).cursors = s.cursors := rfl
@[simp] theorem State.setPort_reservations (s : State) (n : ClientId) (x : Port) : (s.setPort n x).reservations = s.reservations := rfl
@[simp] theorem State.setPort_clients (s : State) (n : ClientId) (x : Port) : (s.setPort n x).clients = s.clients := rfl
@[simp] theorem State.setPort_powerOns (s : State) (n : ClientId) (x : Port) : (s.setPort n x).powerOns = s.powerOns := rfl
@[simp] theorem State.setPort_freeDraws (s : State) (n : ClientId) (x : Port) : (s.setPort n x).freeDraws = s.freeDraws := rfl
@[simp] theorem State.setPort_pending (s : State) (n : ClientId) (x : Port) : (s.setPort n x).pending = s.pending := rfl

/-! ### Reading a table after a write to it -/

@[simp] theorem State.entryAt_setEntry_self (s : State) (e : EntryId) (x : ScheduleEntry) : (s.setEntry e x).entryAt e = x := by
  simp [State.setEntry, State.entryAt]

theorem State.entryAt_setEntry (s : State) (e e' : EntryId) (x : ScheduleEntry) :
    (s.setEntry e x).entryAt e' = if e' = e then x else s.entryAt e' := by
  simp only [State.setEntry, State.entryAt, Vector.getElem_set, Fin.ext_iff, eq_comm]

@[simp] theorem State.source_setSource_self (s : State) (i : SourceId) (x : Source) : (s.setSource i x).source i = x := by
  simp [State.setSource, State.source]

theorem State.source_setSource (s : State) (i i' : SourceId) (x : Source) :
    (s.setSource i x).source i' = if i' = i then x else s.source i' := by
  simp only [State.setSource, State.source, Vector.getElem_set, Fin.ext_iff, eq_comm]

@[simp] theorem State.frame_setFrame_self (s : State) (f : FrameId) (x : Frame) : (s.setFrame f x).frame f = x := by
  simp [State.setFrame, State.frame]

theorem State.frame_setFrame (s : State) (f f' : FrameId) (x : Frame) :
    (s.setFrame f x).frame f' = if f' = f then x else s.frame f' := by
  simp only [State.setFrame, State.frame, Vector.getElem_set, Fin.ext_iff, eq_comm]

@[simp] theorem State.view_setView_self (s : State) (v : ViewId) (x : Option View) : (s.setView v x).view v = x := by
  simp [State.setView, State.view]

theorem State.view_setView (s : State) (v v' : ViewId) (x : Option View) :
    (s.setView v x).view v' = if v' = v then x else s.view v' := by
  simp only [State.setView, State.view, Vector.getElem_set, Fin.ext_iff, eq_comm]

@[simp] theorem State.poolRow_setPoolRow_self (s : State) (p : PoolRow) (x : Option PoolHold) : (s.setPoolRow p x).poolRow p = x := by
  simp [State.setPoolRow, State.poolRow]

theorem State.poolRow_setPoolRow (s : State) (p p' : PoolRow) (x : Option PoolHold) :
    (s.setPoolRow p x).poolRow p' = if p' = p then x else s.poolRow p' := by
  simp only [State.setPoolRow, State.poolRow, Vector.getElem_set, Fin.ext_iff, eq_comm]

@[simp] theorem State.group_setGroup_self (s : State) (g : GroupId) (x : Group) : (s.setGroup g x).group g = x := by
  simp [State.setGroup, State.group]

theorem State.group_setGroup (s : State) (g g' : GroupId) (x : Group) :
    (s.setGroup g x).group g' = if g' = g then x else s.group g' := by
  simp only [State.setGroup, State.group, Vector.getElem_set, Fin.ext_iff, eq_comm]

@[simp] theorem State.cursor_setCursor_self (s : State) (c : CursorId) (x : Cursor) : (s.setCursor c x).cursor c = x := by
  simp [State.setCursor, State.cursor]

theorem State.cursor_setCursor (s : State) (c c' : CursorId) (x : Cursor) :
    (s.setCursor c x).cursor c' = if c' = c then x else s.cursor c' := by
  simp only [State.setCursor, State.cursor, Vector.getElem_set, Fin.ext_iff, eq_comm]

@[simp] theorem State.reservation_setReservation_self (s : State) (n : ClientId) (x : Reservation) : (s.setReservation n x).reservation n = x := by
  simp [State.setReservation, State.reservation]

theorem State.reservation_setReservation (s : State) (n n' : ClientId) (x : Reservation) :
    (s.setReservation n x).reservation n' = if n' = n then x else s.reservation n' := by
  simp only [State.setReservation, State.reservation, Vector.getElem_set, Fin.ext_iff, eq_comm]

@[simp] theorem State.client_setClient_self (s : State) (n : ClientId) (x : NoticeClient) : (s.setClient n x).client n = x := by
  simp [State.setClient, State.client]

theorem State.client_setClient (s : State) (n n' : ClientId) (x : NoticeClient) :
    (s.setClient n x).client n' = if n' = n then x else s.client n' := by
  simp only [State.setClient, State.client, Vector.getElem_set, Fin.ext_iff, eq_comm]

@[simp] theorem State.port_setPort_self (s : State) (n : ClientId) (x : Port) : (s.setPort n x).port n = x := by
  simp [State.setPort, State.port]

theorem State.port_setPort (s : State) (n n' : ClientId) (x : Port) :
    (s.setPort n x).port n' = if n' = n then x else s.port n' := by
  simp only [State.setPort, State.port, Vector.getElem_set, Fin.ext_iff, eq_comm]

/-! ### Reading a table after a write to another -/

@[simp] theorem State.source_setEntry (s : State) (e : EntryId) (x : ScheduleEntry) (m : SourceId) : (s.setEntry e x).source m = s.source m := rfl
@[simp] theorem State.frame_setEntry (s : State) (e : EntryId) (x : ScheduleEntry) (m : FrameId) : (s.setEntry e x).frame m = s.frame m := rfl
@[simp] theorem State.view_setEntry (s : State) (e : EntryId) (x : ScheduleEntry) (m : ViewId) : (s.setEntry e x).view m = s.view m := rfl
@[simp] theorem State.poolRow_setEntry (s : State) (e : EntryId) (x : ScheduleEntry) (m : PoolRow) : (s.setEntry e x).poolRow m = s.poolRow m := rfl
@[simp] theorem State.group_setEntry (s : State) (e : EntryId) (x : ScheduleEntry) (m : GroupId) : (s.setEntry e x).group m = s.group m := rfl
@[simp] theorem State.cursor_setEntry (s : State) (e : EntryId) (x : ScheduleEntry) (m : CursorId) : (s.setEntry e x).cursor m = s.cursor m := rfl
@[simp] theorem State.reservation_setEntry (s : State) (e : EntryId) (x : ScheduleEntry) (m : ClientId) : (s.setEntry e x).reservation m = s.reservation m := rfl
@[simp] theorem State.client_setEntry (s : State) (e : EntryId) (x : ScheduleEntry) (m : ClientId) : (s.setEntry e x).client m = s.client m := rfl
@[simp] theorem State.port_setEntry (s : State) (e : EntryId) (x : ScheduleEntry) (m : ClientId) : (s.setEntry e x).port m = s.port m := rfl
@[simp] theorem State.holder_setEntry (s : State) (e : EntryId) (x : ScheduleEntry) (h : ReadHolder) : (s.setEntry e x).holder h = s.holder h := by cases h <;> rfl
@[simp] theorem State.rowEntry_setEntry (s : State) (e : EntryId) (x : ScheduleEntry) (f : FrameId) (r : Nat) : (s.setEntry e x).rowEntry f r = s.rowEntry f r := rfl
@[simp] theorem State.entryAt_setSource (s : State) (i : SourceId) (x : Source) (m : EntryId) : (s.setSource i x).entryAt m = s.entryAt m := rfl
@[simp] theorem State.frame_setSource (s : State) (i : SourceId) (x : Source) (m : FrameId) : (s.setSource i x).frame m = s.frame m := rfl
@[simp] theorem State.view_setSource (s : State) (i : SourceId) (x : Source) (m : ViewId) : (s.setSource i x).view m = s.view m := rfl
@[simp] theorem State.poolRow_setSource (s : State) (i : SourceId) (x : Source) (m : PoolRow) : (s.setSource i x).poolRow m = s.poolRow m := rfl
@[simp] theorem State.group_setSource (s : State) (i : SourceId) (x : Source) (m : GroupId) : (s.setSource i x).group m = s.group m := rfl
@[simp] theorem State.cursor_setSource (s : State) (i : SourceId) (x : Source) (m : CursorId) : (s.setSource i x).cursor m = s.cursor m := rfl
@[simp] theorem State.reservation_setSource (s : State) (i : SourceId) (x : Source) (m : ClientId) : (s.setSource i x).reservation m = s.reservation m := rfl
@[simp] theorem State.client_setSource (s : State) (i : SourceId) (x : Source) (m : ClientId) : (s.setSource i x).client m = s.client m := rfl
@[simp] theorem State.port_setSource (s : State) (i : SourceId) (x : Source) (m : ClientId) : (s.setSource i x).port m = s.port m := rfl
@[simp] theorem State.holder_setSource (s : State) (i : SourceId) (x : Source) (h : ReadHolder) : (s.setSource i x).holder h = s.holder h := by cases h <;> rfl
@[simp] theorem State.rowEntry_setSource (s : State) (i : SourceId) (x : Source) (f : FrameId) (r : Nat) : (s.setSource i x).rowEntry f r = s.rowEntry f r := rfl
@[simp] theorem State.entryAt_setFrame (s : State) (f : FrameId) (x : Frame) (m : EntryId) : (s.setFrame f x).entryAt m = s.entryAt m := rfl
@[simp] theorem State.source_setFrame (s : State) (f : FrameId) (x : Frame) (m : SourceId) : (s.setFrame f x).source m = s.source m := rfl
@[simp] theorem State.view_setFrame (s : State) (f : FrameId) (x : Frame) (m : ViewId) : (s.setFrame f x).view m = s.view m := rfl
@[simp] theorem State.poolRow_setFrame (s : State) (f : FrameId) (x : Frame) (m : PoolRow) : (s.setFrame f x).poolRow m = s.poolRow m := rfl
@[simp] theorem State.group_setFrame (s : State) (f : FrameId) (x : Frame) (m : GroupId) : (s.setFrame f x).group m = s.group m := rfl
@[simp] theorem State.cursor_setFrame (s : State) (f : FrameId) (x : Frame) (m : CursorId) : (s.setFrame f x).cursor m = s.cursor m := rfl
@[simp] theorem State.reservation_setFrame (s : State) (f : FrameId) (x : Frame) (m : ClientId) : (s.setFrame f x).reservation m = s.reservation m := rfl
@[simp] theorem State.client_setFrame (s : State) (f : FrameId) (x : Frame) (m : ClientId) : (s.setFrame f x).client m = s.client m := rfl
@[simp] theorem State.port_setFrame (s : State) (f : FrameId) (x : Frame) (m : ClientId) : (s.setFrame f x).port m = s.port m := rfl
@[simp] theorem State.holder_setFrame (s : State) (f : FrameId) (x : Frame) (h : ReadHolder) : (s.setFrame f x).holder h = s.holder h := by cases h <;> rfl
@[simp] theorem State.entryAt_setView (s : State) (v : ViewId) (x : Option View) (m : EntryId) : (s.setView v x).entryAt m = s.entryAt m := rfl
@[simp] theorem State.source_setView (s : State) (v : ViewId) (x : Option View) (m : SourceId) : (s.setView v x).source m = s.source m := rfl
@[simp] theorem State.frame_setView (s : State) (v : ViewId) (x : Option View) (m : FrameId) : (s.setView v x).frame m = s.frame m := rfl
@[simp] theorem State.poolRow_setView (s : State) (v : ViewId) (x : Option View) (m : PoolRow) : (s.setView v x).poolRow m = s.poolRow m := rfl
@[simp] theorem State.group_setView (s : State) (v : ViewId) (x : Option View) (m : GroupId) : (s.setView v x).group m = s.group m := rfl
@[simp] theorem State.cursor_setView (s : State) (v : ViewId) (x : Option View) (m : CursorId) : (s.setView v x).cursor m = s.cursor m := rfl
@[simp] theorem State.reservation_setView (s : State) (v : ViewId) (x : Option View) (m : ClientId) : (s.setView v x).reservation m = s.reservation m := rfl
@[simp] theorem State.client_setView (s : State) (v : ViewId) (x : Option View) (m : ClientId) : (s.setView v x).client m = s.client m := rfl
@[simp] theorem State.port_setView (s : State) (v : ViewId) (x : Option View) (m : ClientId) : (s.setView v x).port m = s.port m := rfl
@[simp] theorem State.holder_setView (s : State) (v : ViewId) (x : Option View) (h : ReadHolder) : (s.setView v x).holder h = s.holder h := by cases h <;> rfl
@[simp] theorem State.rowEntry_setView (s : State) (v : ViewId) (x : Option View) (f : FrameId) (r : Nat) : (s.setView v x).rowEntry f r = s.rowEntry f r := rfl
@[simp] theorem State.entryAt_setPoolRow (s : State) (p : PoolRow) (x : Option PoolHold) (m : EntryId) : (s.setPoolRow p x).entryAt m = s.entryAt m := rfl
@[simp] theorem State.source_setPoolRow (s : State) (p : PoolRow) (x : Option PoolHold) (m : SourceId) : (s.setPoolRow p x).source m = s.source m := rfl
@[simp] theorem State.frame_setPoolRow (s : State) (p : PoolRow) (x : Option PoolHold) (m : FrameId) : (s.setPoolRow p x).frame m = s.frame m := rfl
@[simp] theorem State.view_setPoolRow (s : State) (p : PoolRow) (x : Option PoolHold) (m : ViewId) : (s.setPoolRow p x).view m = s.view m := rfl
@[simp] theorem State.group_setPoolRow (s : State) (p : PoolRow) (x : Option PoolHold) (m : GroupId) : (s.setPoolRow p x).group m = s.group m := rfl
@[simp] theorem State.cursor_setPoolRow (s : State) (p : PoolRow) (x : Option PoolHold) (m : CursorId) : (s.setPoolRow p x).cursor m = s.cursor m := rfl
@[simp] theorem State.reservation_setPoolRow (s : State) (p : PoolRow) (x : Option PoolHold) (m : ClientId) : (s.setPoolRow p x).reservation m = s.reservation m := rfl
@[simp] theorem State.client_setPoolRow (s : State) (p : PoolRow) (x : Option PoolHold) (m : ClientId) : (s.setPoolRow p x).client m = s.client m := rfl
@[simp] theorem State.port_setPoolRow (s : State) (p : PoolRow) (x : Option PoolHold) (m : ClientId) : (s.setPoolRow p x).port m = s.port m := rfl
@[simp] theorem State.holder_setPoolRow (s : State) (p : PoolRow) (x : Option PoolHold) (h : ReadHolder) : (s.setPoolRow p x).holder h = s.holder h := by cases h <;> rfl
@[simp] theorem State.rowEntry_setPoolRow (s : State) (p : PoolRow) (x : Option PoolHold) (f : FrameId) (r : Nat) : (s.setPoolRow p x).rowEntry f r = s.rowEntry f r := rfl
@[simp] theorem State.entryAt_setGroup (s : State) (g : GroupId) (x : Group) (m : EntryId) : (s.setGroup g x).entryAt m = s.entryAt m := rfl
@[simp] theorem State.source_setGroup (s : State) (g : GroupId) (x : Group) (m : SourceId) : (s.setGroup g x).source m = s.source m := rfl
@[simp] theorem State.frame_setGroup (s : State) (g : GroupId) (x : Group) (m : FrameId) : (s.setGroup g x).frame m = s.frame m := rfl
@[simp] theorem State.view_setGroup (s : State) (g : GroupId) (x : Group) (m : ViewId) : (s.setGroup g x).view m = s.view m := rfl
@[simp] theorem State.poolRow_setGroup (s : State) (g : GroupId) (x : Group) (m : PoolRow) : (s.setGroup g x).poolRow m = s.poolRow m := rfl
@[simp] theorem State.cursor_setGroup (s : State) (g : GroupId) (x : Group) (m : CursorId) : (s.setGroup g x).cursor m = s.cursor m := rfl
@[simp] theorem State.reservation_setGroup (s : State) (g : GroupId) (x : Group) (m : ClientId) : (s.setGroup g x).reservation m = s.reservation m := rfl
@[simp] theorem State.client_setGroup (s : State) (g : GroupId) (x : Group) (m : ClientId) : (s.setGroup g x).client m = s.client m := rfl
@[simp] theorem State.port_setGroup (s : State) (g : GroupId) (x : Group) (m : ClientId) : (s.setGroup g x).port m = s.port m := rfl
@[simp] theorem State.holder_setGroup (s : State) (g : GroupId) (x : Group) (h : ReadHolder) : (s.setGroup g x).holder h = s.holder h := by cases h <;> rfl
@[simp] theorem State.rowEntry_setGroup (s : State) (g : GroupId) (x : Group) (f : FrameId) (r : Nat) : (s.setGroup g x).rowEntry f r = s.rowEntry f r := rfl
@[simp] theorem State.entryAt_setCursor (s : State) (c : CursorId) (x : Cursor) (m : EntryId) : (s.setCursor c x).entryAt m = s.entryAt m := rfl
@[simp] theorem State.source_setCursor (s : State) (c : CursorId) (x : Cursor) (m : SourceId) : (s.setCursor c x).source m = s.source m := rfl
@[simp] theorem State.frame_setCursor (s : State) (c : CursorId) (x : Cursor) (m : FrameId) : (s.setCursor c x).frame m = s.frame m := rfl
@[simp] theorem State.view_setCursor (s : State) (c : CursorId) (x : Cursor) (m : ViewId) : (s.setCursor c x).view m = s.view m := rfl
@[simp] theorem State.poolRow_setCursor (s : State) (c : CursorId) (x : Cursor) (m : PoolRow) : (s.setCursor c x).poolRow m = s.poolRow m := rfl
@[simp] theorem State.group_setCursor (s : State) (c : CursorId) (x : Cursor) (m : GroupId) : (s.setCursor c x).group m = s.group m := rfl
@[simp] theorem State.reservation_setCursor (s : State) (c : CursorId) (x : Cursor) (m : ClientId) : (s.setCursor c x).reservation m = s.reservation m := rfl
@[simp] theorem State.client_setCursor (s : State) (c : CursorId) (x : Cursor) (m : ClientId) : (s.setCursor c x).client m = s.client m := rfl
@[simp] theorem State.port_setCursor (s : State) (c : CursorId) (x : Cursor) (m : ClientId) : (s.setCursor c x).port m = s.port m := rfl
@[simp] theorem State.holder_setCursor (s : State) (c : CursorId) (x : Cursor) (h : ReadHolder) : (s.setCursor c x).holder h = s.holder h := by cases h <;> rfl
@[simp] theorem State.rowEntry_setCursor (s : State) (c : CursorId) (x : Cursor) (f : FrameId) (r : Nat) : (s.setCursor c x).rowEntry f r = s.rowEntry f r := rfl
@[simp] theorem State.entryAt_setReservation (s : State) (n : ClientId) (x : Reservation) (m : EntryId) : (s.setReservation n x).entryAt m = s.entryAt m := rfl
@[simp] theorem State.source_setReservation (s : State) (n : ClientId) (x : Reservation) (m : SourceId) : (s.setReservation n x).source m = s.source m := rfl
@[simp] theorem State.frame_setReservation (s : State) (n : ClientId) (x : Reservation) (m : FrameId) : (s.setReservation n x).frame m = s.frame m := rfl
@[simp] theorem State.view_setReservation (s : State) (n : ClientId) (x : Reservation) (m : ViewId) : (s.setReservation n x).view m = s.view m := rfl
@[simp] theorem State.poolRow_setReservation (s : State) (n : ClientId) (x : Reservation) (m : PoolRow) : (s.setReservation n x).poolRow m = s.poolRow m := rfl
@[simp] theorem State.group_setReservation (s : State) (n : ClientId) (x : Reservation) (m : GroupId) : (s.setReservation n x).group m = s.group m := rfl
@[simp] theorem State.cursor_setReservation (s : State) (n : ClientId) (x : Reservation) (m : CursorId) : (s.setReservation n x).cursor m = s.cursor m := rfl
@[simp] theorem State.client_setReservation (s : State) (n : ClientId) (x : Reservation) (m : ClientId) : (s.setReservation n x).client m = s.client m := rfl
@[simp] theorem State.port_setReservation (s : State) (n : ClientId) (x : Reservation) (m : ClientId) : (s.setReservation n x).port m = s.port m := rfl
@[simp] theorem State.holder_setReservation (s : State) (n : ClientId) (x : Reservation) (h : ReadHolder) : (s.setReservation n x).holder h = s.holder h := by cases h <;> rfl
@[simp] theorem State.rowEntry_setReservation (s : State) (n : ClientId) (x : Reservation) (f : FrameId) (r : Nat) : (s.setReservation n x).rowEntry f r = s.rowEntry f r := rfl
@[simp] theorem State.entryAt_setClient (s : State) (n : ClientId) (x : NoticeClient) (m : EntryId) : (s.setClient n x).entryAt m = s.entryAt m := rfl
@[simp] theorem State.source_setClient (s : State) (n : ClientId) (x : NoticeClient) (m : SourceId) : (s.setClient n x).source m = s.source m := rfl
@[simp] theorem State.frame_setClient (s : State) (n : ClientId) (x : NoticeClient) (m : FrameId) : (s.setClient n x).frame m = s.frame m := rfl
@[simp] theorem State.view_setClient (s : State) (n : ClientId) (x : NoticeClient) (m : ViewId) : (s.setClient n x).view m = s.view m := rfl
@[simp] theorem State.poolRow_setClient (s : State) (n : ClientId) (x : NoticeClient) (m : PoolRow) : (s.setClient n x).poolRow m = s.poolRow m := rfl
@[simp] theorem State.group_setClient (s : State) (n : ClientId) (x : NoticeClient) (m : GroupId) : (s.setClient n x).group m = s.group m := rfl
@[simp] theorem State.cursor_setClient (s : State) (n : ClientId) (x : NoticeClient) (m : CursorId) : (s.setClient n x).cursor m = s.cursor m := rfl
@[simp] theorem State.reservation_setClient (s : State) (n : ClientId) (x : NoticeClient) (m : ClientId) : (s.setClient n x).reservation m = s.reservation m := rfl
@[simp] theorem State.port_setClient (s : State) (n : ClientId) (x : NoticeClient) (m : ClientId) : (s.setClient n x).port m = s.port m := rfl
@[simp] theorem State.holder_setClient (s : State) (n : ClientId) (x : NoticeClient) (h : ReadHolder) : (s.setClient n x).holder h = s.holder h := by cases h <;> rfl
@[simp] theorem State.rowEntry_setClient (s : State) (n : ClientId) (x : NoticeClient) (f : FrameId) (r : Nat) : (s.setClient n x).rowEntry f r = s.rowEntry f r := rfl
@[simp] theorem State.entryAt_setPort (s : State) (n : ClientId) (x : Port) (m : EntryId) : (s.setPort n x).entryAt m = s.entryAt m := rfl
@[simp] theorem State.source_setPort (s : State) (n : ClientId) (x : Port) (m : SourceId) : (s.setPort n x).source m = s.source m := rfl
@[simp] theorem State.frame_setPort (s : State) (n : ClientId) (x : Port) (m : FrameId) : (s.setPort n x).frame m = s.frame m := rfl
@[simp] theorem State.view_setPort (s : State) (n : ClientId) (x : Port) (m : ViewId) : (s.setPort n x).view m = s.view m := rfl
@[simp] theorem State.poolRow_setPort (s : State) (n : ClientId) (x : Port) (m : PoolRow) : (s.setPort n x).poolRow m = s.poolRow m := rfl
@[simp] theorem State.group_setPort (s : State) (n : ClientId) (x : Port) (m : GroupId) : (s.setPort n x).group m = s.group m := rfl
@[simp] theorem State.cursor_setPort (s : State) (n : ClientId) (x : Port) (m : CursorId) : (s.setPort n x).cursor m = s.cursor m := rfl
@[simp] theorem State.reservation_setPort (s : State) (n : ClientId) (x : Port) (m : ClientId) : (s.setPort n x).reservation m = s.reservation m := rfl
@[simp] theorem State.client_setPort (s : State) (n : ClientId) (x : Port) (m : ClientId) : (s.setPort n x).client m = s.client m := rfl
@[simp] theorem State.holder_setPort (s : State) (n : ClientId) (x : Port) (h : ReadHolder) : (s.setPort n x).holder h = s.holder h := by cases h <;> rfl
@[simp] theorem State.rowEntry_setPort (s : State) (n : ClientId) (x : Port) (f : FrameId) (r : Nat) : (s.setPort n x).rowEntry f r = s.rowEntry f r := rfl

/-! ### Changing one record is reading it and writing it -/

@[simp] theorem State.modifySource_eq (s : State) (k : SourceId) (g : Source → Source) : s.modifySource k g = s.setSource k (g (s.source k)) := rfl
@[simp] theorem State.modifyFrame_eq (s : State) (k : FrameId) (g : Frame → Frame) : s.modifyFrame k g = s.setFrame k (g (s.frame k)) := rfl
@[simp] theorem State.modifyGroup_eq (s : State) (k : GroupId) (g : Group → Group) : s.modifyGroup k g = s.setGroup k (g (s.group k)) := rfl
@[simp] theorem State.modifyCursor_eq (s : State) (k : CursorId) (g : Cursor → Cursor) : s.modifyCursor k g = s.setCursor k (g (s.cursor k)) := rfl
@[simp] theorem State.modifyView_eq (s : State) (v : ViewId) (g : View → View) : s.modifyView v g = s.setView v ((s.view v).map g) := rfl
@[simp] theorem State.modifyHolder_eq (s : State) (h : ReadHolder) (g : ReadRequest → ReadRequest) : s.modifyHolder h g = s.setHolder h ((s.holder h).map g) := rfl

/-! ### The read holders -/

@[simp] theorem State.setHolder_clock (s : State) (h : ReadHolder) (x : Option ReadRequest) : (s.setHolder h x).clock = s.clock := by cases h <;> rfl
@[simp] theorem State.setHolder_schedule (s : State) (h : ReadHolder) (x : Option ReadRequest) : (s.setHolder h x).schedule = s.schedule := by cases h <;> rfl
@[simp] theorem State.setHolder_sources (s : State) (h : ReadHolder) (x : Option ReadRequest) : (s.setHolder h x).sources = s.sources := by cases h <;> rfl
@[simp] theorem State.setHolder_pointer (s : State) (h : ReadHolder) (x : Option ReadRequest) : (s.setHolder h x).pointer = s.pointer := by cases h <;> rfl
@[simp] theorem State.setHolder_storeConfig (s : State) (h : ReadHolder) (x : Option ReadRequest) : (s.setHolder h x).storeConfig = s.storeConfig := by cases h <;> rfl
@[simp] theorem State.setHolder_frames (s : State) (h : ReadHolder) (x : Option ReadRequest) : (s.setHolder h x).frames = s.frames := by cases h <;> rfl
@[simp] theorem State.setHolder_views (s : State) (h : ReadHolder) (x : Option ReadRequest) : (s.setHolder h x).views = s.views := by cases h <;> rfl
@[simp] theorem State.setHolder_pool (s : State) (h : ReadHolder) (x : Option ReadRequest) : (s.setHolder h x).pool = s.pool := by cases h <;> rfl
@[simp] theorem State.setHolder_groups (s : State) (h : ReadHolder) (x : Option ReadRequest) : (s.setHolder h x).groups = s.groups := by cases h <;> rfl
@[simp] theorem State.setHolder_seamQueue (s : State) (h : ReadHolder) (x : Option ReadRequest) : (s.setHolder h x).seamQueue = s.seamQueue := by cases h <;> rfl
@[simp] theorem State.setHolder_engine (s : State) (h : ReadHolder) (x : Option ReadRequest) : (s.setHolder h x).engine = s.engine := by cases h <;> rfl
@[simp] theorem State.setHolder_memory (s : State) (h : ReadHolder) (x : Option ReadRequest) : (s.setHolder h x).memory = s.memory := by cases h <;> rfl
@[simp] theorem State.setHolder_writeQueue (s : State) (h : ReadHolder) (x : Option ReadRequest) : (s.setHolder h x).writeQueue = s.writeQueue := by cases h <;> rfl
@[simp] theorem State.setHolder_readPointer (s : State) (h : ReadHolder) (x : Option ReadRequest) : (s.setHolder h x).readPointer = s.readPointer := by cases h <;> rfl
@[simp] theorem State.setHolder_issueCount (s : State) (h : ReadHolder) (x : Option ReadRequest) : (s.setHolder h x).issueCount = s.issueCount := by cases h <;> rfl
@[simp] theorem State.setHolder_answerFloor (s : State) (h : ReadHolder) (x : Option ReadRequest) : (s.setHolder h x).answerFloor = s.answerFloor := by cases h <;> rfl
@[simp] theorem State.setHolder_late (s : State) (h : ReadHolder) (x : Option ReadRequest) : (s.setHolder h x).late = s.late := by cases h <;> rfl
@[simp] theorem State.setHolder_errors (s : State) (h : ReadHolder) (x : Option ReadRequest) : (s.setHolder h x).errors = s.errors := by cases h <;> rfl
@[simp] theorem State.setHolder_logCounter (s : State) (h : ReadHolder) (x : Option ReadRequest) : (s.setHolder h x).logCounter = s.logCounter := by cases h <;> rfl
@[simp] theorem State.setHolder_cursors (s : State) (h : ReadHolder) (x : Option ReadRequest) : (s.setHolder h x).cursors = s.cursors := by cases h <;> rfl
@[simp] theorem State.setHolder_reservations (s : State) (h : ReadHolder) (x : Option ReadRequest) : (s.setHolder h x).reservations = s.reservations := by cases h <;> rfl
@[simp] theorem State.setHolder_clients (s : State) (h : ReadHolder) (x : Option ReadRequest) : (s.setHolder h x).clients = s.clients := by cases h <;> rfl
@[simp] theorem State.setHolder_ports (s : State) (h : ReadHolder) (x : Option ReadRequest) : (s.setHolder h x).ports = s.ports := by cases h <;> rfl
@[simp] theorem State.setHolder_powerOns (s : State) (h : ReadHolder) (x : Option ReadRequest) : (s.setHolder h x).powerOns = s.powerOns := by cases h <;> rfl
@[simp] theorem State.setHolder_freeDraws (s : State) (h : ReadHolder) (x : Option ReadRequest) : (s.setHolder h x).freeDraws = s.freeDraws := by cases h <;> rfl
@[simp] theorem State.setHolder_pending (s : State) (h : ReadHolder) (x : Option ReadRequest) : (s.setHolder h x).pending = s.pending := by cases h <;> rfl

@[simp] theorem State.holder_setHolder_self (s : State) (h : ReadHolder) (x : Option ReadRequest) :
    (s.setHolder h x).holder h = x := by
  cases h <;> simp [State.setHolder, State.holder]

theorem State.holder_setHolder (s : State) (h k : ReadHolder) (x : Option ReadRequest) :
    (s.setHolder h x).holder k = if k = h then x else s.holder k := by
  cases h <;> cases k <;> simp [State.setHolder, State.holder, Vector.getElem_set, Fin.ext_iff, eq_comm]

@[simp] theorem State.entryAt_setHolder (s : State) (h : ReadHolder) (x : Option ReadRequest) (m : EntryId) : (s.setHolder h x).entryAt m = s.entryAt m := by cases h <;> rfl
@[simp] theorem State.source_setHolder (s : State) (h : ReadHolder) (x : Option ReadRequest) (m : SourceId) : (s.setHolder h x).source m = s.source m := by cases h <;> rfl
@[simp] theorem State.frame_setHolder (s : State) (h : ReadHolder) (x : Option ReadRequest) (m : FrameId) : (s.setHolder h x).frame m = s.frame m := by cases h <;> rfl
@[simp] theorem State.view_setHolder (s : State) (h : ReadHolder) (x : Option ReadRequest) (m : ViewId) : (s.setHolder h x).view m = s.view m := by cases h <;> rfl
@[simp] theorem State.poolRow_setHolder (s : State) (h : ReadHolder) (x : Option ReadRequest) (m : PoolRow) : (s.setHolder h x).poolRow m = s.poolRow m := by cases h <;> rfl
@[simp] theorem State.group_setHolder (s : State) (h : ReadHolder) (x : Option ReadRequest) (m : GroupId) : (s.setHolder h x).group m = s.group m := by cases h <;> rfl
@[simp] theorem State.cursor_setHolder (s : State) (h : ReadHolder) (x : Option ReadRequest) (m : CursorId) : (s.setHolder h x).cursor m = s.cursor m := by cases h <;> rfl
@[simp] theorem State.reservation_setHolder (s : State) (h : ReadHolder) (x : Option ReadRequest) (m : ClientId) : (s.setHolder h x).reservation m = s.reservation m := by cases h <;> rfl
@[simp] theorem State.client_setHolder (s : State) (h : ReadHolder) (x : Option ReadRequest) (m : ClientId) : (s.setHolder h x).client m = s.client m := by cases h <;> rfl
@[simp] theorem State.port_setHolder (s : State) (h : ReadHolder) (x : Option ReadRequest) (m : ClientId) : (s.setHolder h x).port m = s.port m := by cases h <;> rfl

end Sys2Proof.Machine
end

