-- ==== Sys2Proof/Laws/Moves.lean ====
section
/-! SUPPORT. What the shared operations can do, said once: each leaves the fields that only named commands change, keeps
the class masks, keeps the NOTICE lines true to the pending sets, and keeps the queues bounded. -/

namespace Sys2Proof.Machine

/-- The fields that no shared operation changes. -/
structure Fixed where
  clock       : DayClock
  schedule    : Vector ScheduleEntry 64
  storeConfig : StoreConfig
  memory      : List Host.Cell
  pointer     : SourceId
  readPointer : CursorId
  issueCount  : Nat
  answerFloor : Nat
  late        : List LateOp
  powerOns    : Nat
  pending     : List Instr

def State.fixed (s : State) : Fixed where
  clock := s.clock
  schedule := s.schedule
  storeConfig := s.storeConfig
  memory := s.memory
  pointer := s.pointer
  readPointer := s.readPointer
  issueCount := s.issueCount
  answerFloor := s.answerFloor
  late := s.late
  powerOns := s.powerOns
  pending := s.pending

/-- From `s` to `t` by the part's shared operations. -/
structure State.Moves (s t : State) : Prop where
  fixed   : t.fixed = s.fixed
  notices : s.noticesOk → t.noticesOk
  queues  : s.queuesOk → t.queuesOk
  masks   : ∀ n, (t.port n).mask = (s.port n).mask

theorem State.Moves.refl (s : State) : s.Moves s := ⟨rfl, id, id, fun _ => rfl⟩

theorem State.Moves.trans {s t u : State} (h : s.Moves t) (k : t.Moves u) : s.Moves u :=
  ⟨k.fixed.trans h.fixed, fun x => k.notices (h.notices x), fun x => k.queues (h.queues x),
    fun n => (k.masks n).trans (h.masks n)⟩

/-- A change of none of the fields concerned. -/
theorem State.Moves.of_eq {s t : State} (h : t.fixed = s.fixed) (hc : t.clients = s.clients)
    (hw : t.writeQueue = s.writeQueue) (he : t.errors = s.errors) (hq : t.seamQueue = s.seamQueue)
    (hp : t.ports = s.ports) : s.Moves t :=
  ⟨h, fun x n => by simpa [State.client, hc] using x n, fun x => by simpa [State.queuesOk, hw, he, hq] using x,
    fun n => by simp [State.port, hp]⟩

theorem State.Moves.memory {s t : State} (h : s.Moves t) : t.memory = s.memory := congrArg Fixed.memory h.fixed
theorem State.Moves.clock {s t : State} (h : s.Moves t) : t.clock = s.clock := congrArg Fixed.clock h.fixed
theorem State.Moves.schedule {s t : State} (h : s.Moves t) : t.schedule = s.schedule := congrArg Fixed.schedule h.fixed
theorem State.Moves.storeConfig {s t : State} (h : s.Moves t) : t.storeConfig = s.storeConfig :=
  congrArg Fixed.storeConfig h.fixed
theorem State.Moves.pending {s t : State} (h : s.Moves t) : t.pending = s.pending := congrArg Fixed.pending h.fixed
theorem State.Moves.readPointer {s t : State} (h : s.Moves t) : t.readPointer = s.readPointer :=
  congrArg Fixed.readPointer h.fixed
theorem State.Moves.pointer {s t : State} (h : s.Moves t) : t.pointer = s.pointer := congrArg Fixed.pointer h.fixed

theorem State.Moves.foldl {α : Type} {g : State → α → State} (hg : ∀ (s : State) (a : α), s.Moves (g s a)) :
    ∀ (l : List α) (s : State), s.Moves (l.foldl g s)
  | [], s => .refl s
  | a :: l, s => (hg s a).trans (State.Moves.foldl hg l (g s a))

/-- A further step that is taken only sometimes. -/
theorem State.Moves.iteThen {s t u : State} {p : Prop} [Decidable p] (h : s.Moves t) (k : t.Moves u) :
    s.Moves (if p then u else t) := by
  split
  · exact h.trans k
  · exact h

theorem State.Moves.ite {s t u : State} {p : Prop} [Decidable p] (h : s.Moves t) (k : s.Moves u) :
    s.Moves (if p then t else u) := by
  split
  · exact h
  · exact k

/-! ### Single writes -/

theorem State.setSource_moves (s : State) (i : SourceId) (x : Source) : s.Moves (s.setSource i x) :=
  .of_eq rfl rfl rfl rfl rfl rfl
theorem State.setFrame_moves (s : State) (f : FrameId) (x : Frame) : s.Moves (s.setFrame f x) :=
  .of_eq rfl rfl rfl rfl rfl rfl
theorem State.setView_moves (s : State) (v : ViewId) (x : Option View) : s.Moves (s.setView v x) :=
  .of_eq rfl rfl rfl rfl rfl rfl
theorem State.setPoolRow_moves (s : State) (p : PoolRow) (x : Option PoolHold) : s.Moves (s.setPoolRow p x) :=
  .of_eq rfl rfl rfl rfl rfl rfl
theorem State.setGroup_moves (s : State) (g : GroupId) (x : Group) : s.Moves (s.setGroup g x) :=
  .of_eq rfl rfl rfl rfl rfl rfl
theorem State.setCursor_moves (s : State) (c : CursorId) (x : Cursor) : s.Moves (s.setCursor c x) :=
  .of_eq rfl rfl rfl rfl rfl rfl
theorem State.setReservation_moves (s : State) (n : ClientId) (x : Reservation) : s.Moves (s.setReservation n x) :=
  .of_eq rfl rfl rfl rfl rfl rfl
theorem State.setHolder_moves (s : State) (h : ReadHolder) (x : Option ReadRequest) : s.Moves (s.setHolder h x) := by
  cases h <;> exact .of_eq rfl rfl rfl rfl rfl rfl

theorem State.modifySource_moves (s : State) (i : SourceId) (g : Source → Source) : s.Moves (s.modifySource i g) :=
  s.setSource_moves i _
theorem State.modifyFrame_moves (s : State) (f : FrameId) (g : Frame → Frame) : s.Moves (s.modifyFrame f g) :=
  s.setFrame_moves f _
theorem State.modifyGroup_moves (s : State) (k : GroupId) (g : Group → Group) : s.Moves (s.modifyGroup k g) :=
  s.setGroup_moves k _
theorem State.modifyCursor_moves (s : State) (c : CursorId) (g : Cursor → Cursor) : s.Moves (s.modifyCursor c g) :=
  s.setCursor_moves c _
theorem State.modifyView_moves (s : State) (v : ViewId) (g : View → View) : s.Moves (s.modifyView v g) :=
  s.setView_moves v _
theorem State.modifyHolder_moves (s : State) (h : ReadHolder) (g : ReadRequest → ReadRequest) :
    s.Moves (s.modifyHolder h g) := s.setHolder_moves h _

theorem State.setPort_moves (s : State) (n : ClientId) (x : Port) (h : x.mask = (s.port n).mask) :
    s.Moves (s.setPort n x) :=
  ⟨rfl, id, id, fun m => by rw [State.port_setPort]; split <;> simp_all⟩

theorem State.setClient_moves (s : State) (n : ClientId) (x : NoticeClient) (h : x.line = x.noticeDue)
    (ho : (s.client n).inOrder → x.inOrder) : s.Moves (s.setClient n x) :=
  ⟨rfl, fun k m => by
    rw [State.client_setClient]
    split
    · exact ⟨h, ho (k n).2⟩
    · exact k m, id, fun _ => rfl⟩

theorem State.setErrors_moves (s : State) (l : List ErrorRecord) (k : Nat) (h : s.errors.length ≤ 8 → l.length ≤ 8) :
    s.Moves { s with errors := l, logCounter := k } :=
  ⟨rfl, id, fun x => ⟨x.1, h x.2.1, x.2.2⟩, fun _ => rfl⟩

theorem State.setWriteQueue_moves (s : State) (l : List WriteOp) (h : s.writeQueue.length ≤ 8 → l.length ≤ 8) :
    s.Moves { s with writeQueue := l } := ⟨rfl, id, fun x => ⟨h x.1, x.2.1, x.2.2⟩, fun _ => rfl⟩

theorem State.setSeamQueue_moves (s : State) (l : List (GroupId × Nat)) (h : s.seamQueue.length ≤ 8 → l.length ≤ 8) :
    s.Moves { s with seamQueue := l } := ⟨rfl, id, fun x => ⟨x.1, x.2.1, h x.2.2⟩, fun _ => rfl⟩

theorem State.setFrames_moves (s : State) (l : Vector Frame 24) : s.Moves { s with frames := l } :=
  .of_eq rfl rfl rfl rfl rfl rfl
theorem State.setSources_moves (s : State) (l : Vector Source 3) : s.Moves { s with sources := l } :=
  .of_eq rfl rfl rfl rfl rfl rfl
theorem State.setPool_moves (s : State) (l : Vector (Option PoolHold) 512) : s.Moves { s with pool := l } :=
  .of_eq rfl rfl rfl rfl rfl rfl
theorem State.setEngine_moves (s : State) (x : Option Search) : s.Moves { s with engine := x } :=
  .of_eq rfl rfl rfl rfl rfl rfl
theorem State.setReservations_moves (s : State) (l : Vector Reservation 3) : s.Moves { s with reservations := l } :=
  .of_eq rfl rfl rfl rfl rfl rfl

/-! ### Notices and errors -/

/-- A client's line is right after its record is relit. -/
@[simp] theorem NoticeClient.relit_line (c : NoticeClient) : c.relit.line = c.relit.noticeDue := rfl

/-- An origin's place in the order of R167 lies below 64, and is its own. -/
theorem Origin.rank_lt (o : Origin) : o.rank < 64 := by
  cases o <;> simp only [Origin.rank] <;> omega

theorem Origin.rank_injective : Function.Injective Origin.rank := by
  intro a b h
  cases a <;> cases b <;> simp only [Origin.rank] at h <;>
    first
      | rfl
      | omega
      | exact congrArg _ (Fin.ext (by omega))

/-- The key of a pair orders by kind, then by origin. -/
theorem NoticePair.key_lt_iff (p q : NoticePair) :
    p.key < q.key ↔ p.detail.kindIndex < q.detail.kindIndex
      ∨ p.detail.kindIndex = q.detail.kindIndex ∧ p.origin.rank < q.origin.rank := by
  have hp := p.origin.rank_lt
  have hq := q.origin.rank_lt
  rw [Fin.lt_def, Fin.ext_iff]
  unfold NoticePair.key
  omega

/-- Two pairs have one key exactly when they are of one kind and origin. -/
theorem NoticePair.key_eq_iff (p q : NoticePair) :
    p.key = q.key ↔ p.detail.kindIndex = q.detail.kindIndex ∧ p.origin = q.origin := by
  have hp := p.origin.rank_lt
  have hq := q.origin.rank_lt
  rw [← Origin.rank_injective.eq_iff, Fin.ext_iff]
  unfold NoticePair.key
  omega

theorem NoticeClient.inOrder_iff (c : NoticeClient) : c.inOrder ↔ c.pendingSet.Pairwise (fun p q => p.key < q.key) := by
  simp only [NoticePair.key_lt_iff]

/-- The keys after filing a pair are the keys before it and the pair's own. -/
theorem filePair_keys (p : NoticePair) : ∀ (l : List NoticePair), ∀ x ∈ filePair p l, x.key = p.key ∨ ∃ q ∈ l, x.key = q.key
  | [], x, h => .inl (by rw [List.mem_singleton.mp h])
  | q :: qs, x, h => by
    unfold filePair at h
    split at h
    · rcases List.mem_cons.mp h with rfl | h
      · exact .inl rfl
      · exact .inr ⟨x, h, rfl⟩
    · split at h
      · rename_i heq
        rcases List.mem_cons.mp h with rfl | h
        · exact .inl (by rw [heq, NoticePair.key_eq_iff]; exact ⟨((NoticePair.key_eq_iff p q).mp heq).1, rfl⟩)
        · exact .inr ⟨x, List.mem_cons_of_mem _ h, rfl⟩
      · rcases List.mem_cons.mp h with rfl | h
        · exact .inr ⟨x, List.mem_cons_self, rfl⟩
        · exact (filePair_keys p qs x h).imp_right (fun ⟨r, hr, hx⟩ => ⟨r, List.mem_cons_of_mem _ hr, hx⟩)

/-- Filing keeps the order (R169, R171). -/
theorem filePair_sorted (p : NoticePair) {l : List NoticePair} (h : l.Pairwise (fun p q => p.key < q.key)) :
    (filePair p l).Pairwise (fun p q => p.key < q.key) := by
  induction l with
  | nil => exact List.pairwise_singleton _ _
  | cons q qs ih =>
    have hq := List.pairwise_cons.mp h
    unfold filePair
    split
    · rename_i hlt
      exact List.pairwise_cons.mpr ⟨fun x hx => by
        rcases List.mem_cons.mp hx with rfl | hx
        · exact hlt
        · exact hlt.trans (hq.1 x hx), h⟩
    · split
      · rename_i heq
        have hk : ∀ n, NoticePair.key { q with detail := p.detail, count := n } = q.key := fun n => by
          rw [NoticePair.key_eq_iff]
          exact ⟨((NoticePair.key_eq_iff p q).mp heq).1, rfl⟩
        exact List.pairwise_cons.mpr ⟨fun x hx => by rw [hk]; exact hq.1 x hx, hq.2⟩
      · rename_i hlt hne
        exact List.pairwise_cons.mpr ⟨fun x hx => by
          rcases filePair_keys p qs x hx with hx | ⟨r, hr, hx⟩
          · omega
          · have := hq.1 r hr
            omega, ih hq.2⟩

/-- An offer keeps a right line right and the pending set in order (R169). -/
theorem NoticeClient.offer_ok (c : NoticeClient) (o : Origin) (d : NoticeDetail) (h : c.line = c.noticeDue ∧ c.inOrder) :
    (c.offer o d).line = (c.offer o d).noticeDue ∧ (c.offer o d).inOrder := by
  unfold NoticeClient.offer
  dsimp only
  split
  · exact h
  · exact ⟨rfl, (NoticeClient.inOrder_iff _).mpr (filePair_sorted _ ((NoticeClient.inOrder_iff c).mp h.2))⟩

theorem State.offerTo_moves (s : State) (n : ClientId) (o : Origin) (d : NoticeDetail) : s.Moves (s.offerTo n o d) :=
  ⟨rfl, fun k m => by
    rw [State.offerTo, State.client_setClient]
    split
    · exact NoticeClient.offer_ok _ o d (k n)
    · exact k m, id, fun _ => rfl⟩

theorem State.raise_moves (s : State) (o : Origin) (d : NoticeDetail) : s.Moves (s.raise o d) :=
  State.Moves.foldl (fun s n => s.offerTo_moves n o d) _ s

theorem modifyNewest_length (g : ErrorRecord → ErrorRecord) :
    ∀ l : List ErrorRecord, (modifyNewest g l).length = l.length
  | [] => rfl
  | [_] => rfl
  | _ :: r' :: rest => by simp [modifyNewest, modifyNewest_length g (r' :: rest)]

/-- An error is appended only where the queue has room (R129). -/
theorem filingOf_appended {l : List ErrorRecord} {e : ErrorReport} (h : filingOf l e = .appended) : l.length < 8 := by
  unfold filingOf at h
  split at h
  · split at h
    · cases h
    · split at h
      · assumption
      · cases h
  · rename_i hl
    simp [List.getLast?_eq_none_iff.mp hl]

theorem State.enqueueError_moves (s : State) (e : ErrorReport) (m : Bool) : s.Moves (s.enqueueError e m) := by
  unfold State.enqueueError
  split
  · exact s.setErrors_moves _ _ (by simp [foldNewest, modifyNewest_length])
  · rename_i h
    have := filingOf_appended h
    exact s.setErrors_moves _ _ (by simp; omega)
  · exact s.setErrors_moves _ _ (by simp [dropOnNewest, modifyNewest_length])

theorem State.fileError_moves (s : State) (e : ErrorReport) (m : Bool) : s.Moves (s.fileError e m) :=
  (s.enqueueError_moves e m).trans (State.raise_moves _ _ _)

theorem State.logError_moves (s : State) (e : ErrorReport) : s.Moves (s.logError e) := s.fileError_moves e false

theorem State.unmarkRecords_moves (s : State) (f : FrameId) : s.Moves (s.unmarkRecords f) :=
  s.setErrors_moves _ s.logCounter (by simp)

/-! ### Ports -/

theorem State.answer_moves (s : State) (n : ClientId) (st : Status) (b : List Byte) : s.Moves (s.answer n st b) :=
  s.setPort_moves n _ rfl

theorem State.beginCommand_moves (s : State) (n : ClientId) (t : Nat) : s.Moves (s.beginCommand n t) :=
  s.setPort_moves n _ rfl

theorem State.answerBusy_moves (s : State) (n : ClientId) (t : Option Nat) : s.Moves (s.answerBusy n t) := by
  cases t
  · exact (s.setPort_moves n { s.port n with busyTag := some (Config.tagOfTaglessFrame s.freeDraws) } rfl).trans
      (.of_eq rfl rfl rfl rfl rfl rfl)
  · exact s.setPort_moves n _ rfl

theorem State.request_moves (s : State) (n : ClientId) (t : Nat) (cl : List CommandClass) (run : State → State)
    (h : ∀ u : State, u.Moves (run u)) : s.Moves (s.request n t cl run) := by
  have taken : s.Moves (run (s.beginCommand n t)) := (s.beginCommand_moves n t).trans (h _)
  have denied : s.Moves ((s.beginCommand n t).answer n .denied []) :=
    (s.beginCommand_moves n t).trans (State.answer_moves _ _ _ _)
  unfold State.request
  split
  · exact .refl s
  · exact s.answerBusy_moves n _
  · exact .ite taken denied
  · exact .ite taken denied

/-! ### The controller -/

theorem State.readyWaiting_moves (s : State) : s.Moves s.readyWaiting := s.setSources_moves _
theorem State.readyStalled_moves (s : State) (f : FrameId) (r : Nat) : s.Moves (s.readyStalled f r) :=
  s.setSources_moves _

theorem State.post_moves (s : State) (o : WriteOp) (h : s.queueFull = false) : s.Moves (s.post o) := by
  refine s.setWriteQueue_moves _ fun _ => ?_
  have : ¬ 8 ≤ s.writeQueue.length := by simpa [State.queueFull] using h
  simp only [List.length_append, List.length_singleton]
  omega

theorem State.retireOp_moves (s : State) (n : Nat) : s.Moves (s.retireOp n) :=
  (s.setWriteQueue_moves _ fun h => (List.length_filter_le _ _).trans h).trans (State.readyWaiting_moves _)

theorem State.staleOps_moves (s : State) (f : FrameId) : s.Moves (s.staleOps f) :=
  s.setWriteQueue_moves _ (by simp)

theorem State.removeUnissued_moves (s : State) (f : FrameId) : s.Moves (s.removeUnissued f) :=
  .ite ((s.setWriteQueue_moves _ fun h => (List.length_filter_le _ _).trans h).trans (State.readyWaiting_moves _))
    (.refl s)

theorem State.placeRead_moves (s : State) (h : ReadHolder) (f : FrameId) (r : Nat) (d : DrumClass)
    (p : Option PoolRow) : s.Moves (s.placeRead h f r d p) := s.setHolder_moves h _

theorem State.abandonRead_moves (s : State) (h : ReadHolder) : s.Moves (s.abandonRead h) := s.modifyHolder_moves h _

theorem State.retakeRow_moves (s : State) (h : ReadHolder) : s.Moves (s.retakeRow h) := by
  cases h
  · exact s.setCursor_moves _ _
  · exact .refl s

theorem State.markRead_moves (s : State) (f : FrameId) (k : ReadFate) (h : ReadHolder) :
    s.Moves (s.markRead f k h) := by
  unfold State.markRead
  split
  · exact .refl s
  · exact .ite (.refl s) (.ite ((s.setHolder_moves h _).trans (State.retakeRow_moves _ _))
      (.ite (.refl s) (s.modifyHolder_moves h _)))

theorem State.vanishReads_moves (s : State) (f : FrameId) : s.Moves (s.vanishReads f) :=
  State.Moves.foldl (fun s h => s.markRead_moves f .vanished h) _ s
theorem State.faultReads_moves (s : State) (f : FrameId) : s.Moves (s.faultReads f) :=
  State.Moves.foldl (fun s h => s.markRead_moves f .faulted h) _ s
theorem State.emptyHolder_moves (s : State) (h : ReadHolder) : s.Moves (s.emptyHolder h) := s.setHolder_moves h _

/-! ### Sources, cursors, views -/

theorem State.sourceFaulted_moves (s : State) (i : SourceId) : s.Moves (s.sourceFaulted i) := by
  unfold State.sourceFaulted
  split
  · exact .refl s
  · exact (s.modifySource_moves i _).trans (State.raise_moves _ _ _)

theorem State.unpinCursor_moves (s : State) (c : CursorId) : s.Moves (s.unpinCursor c) := s.setFrames_moves _

theorem State.pinCursor_moves (s : State) (c : CursorId) (a : Attachment) : s.Moves (s.pinCursor c a) :=
  State.Moves.foldl (fun _ _ => State.modifyFrame_moves _ _ _) _ s

theorem State.cutJob_moves (s : State) (c : CursorId) (st : Status) : s.Moves (s.cutJob c st) := by
  unfold State.cutJob
  split
  · exact .refl s
  · exact (s.modifyCursor_moves c _).trans (State.answer_moves _ _ _ _)

theorem State.loseCursor_moves (s : State) (c : CursorId) (k : LostCause) : s.Moves (s.loseCursor c k) := by
  unfold State.loseCursor
  split
  · exact .refl s
  · exact ((((s.unpinCursor_moves c).trans (State.cutJob_moves _ _ _)).trans (State.abandonRead_moves _ _)).trans
      (State.modifyCursor_moves _ _ _)).trans (State.raise_moves _ _ _)

theorem State.loseCursors_moves (s : State) (p : Cursor → Bool) (k : LostCause) : s.Moves (s.loseCursors p k) :=
  State.Moves.foldl (fun s c => .ite (s.loseCursor_moves c k) (.refl s)) _ s

theorem State.markViewGone_moves (s : State) (f : FrameId) : s.Moves (s.markViewGone f) :=
  State.Moves.foldl (fun t h => t.modifyHolder_moves h _) _ s

theorem State.releaseView_moves (s : State) (f : FrameId) (k : LostCause) : s.Moves (s.releaseView f k) := by
  unfold State.releaseView
  split
  · exact .refl s
  · exact ((((((s.markViewGone_moves _).trans (State.setPool_moves _ _)).trans (State.modifyFrame_moves _ f _)).trans
      (State.loseCursors_moves _ _ k)).trans (State.setView_moves _ _ _))).trans (State.modifyFrame_moves _ _ _)

theorem State.attachPrevious_moves (s : State) (f : FrameId) : s.Moves (s.attachPrevious f) := by
  unfold State.attachPrevious
  split
  · exact .refl s
  · exact s.modifyView_moves _ _

theorem State.detachPrevious_moves (s : State) (f : FrameId) : s.Moves (s.detachPrevious f) := by
  unfold State.detachPrevious
  split
  · exact .refl s
  · exact .ite (((s.modifyView_moves _ _).trans (State.releaseView_moves _ _ _)).trans (State.modifyFrame_moves _ _ _))
      (s.modifyView_moves _ _)

theorem State.givePoolRow_moves (s : State) (p : PoolRow) (v : ViewId) (f : FrameId) (r : Nat) :
    s.Moves (s.givePoolRow p v f r) := (s.setPoolRow_moves p _).trans (State.modifyView_moves _ _ _)

theorem State.returnPoolRow_moves (s : State) (p : PoolRow) (f : FrameId) (r : Nat) :
    s.Moves (s.returnPoolRow p f r) := by
  unfold State.returnPoolRow
  split
  · exact .refl s
  · exact .ite ((s.setPoolRow_moves p _).trans (State.modifyView_moves _ _ _)) (.refl s)

theorem State.openView_moves (s : State) (f : FrameId) : s.Moves (s.openView f) := by
  unfold State.openView
  split
  · exact .refl s
  · exact (s.setView_moves _ _).trans (State.modifyFrame_moves _ _ _)

/-! ### The mosaic unit and the seam engine -/

theorem State.recomputeHeight_moves (s : State) (g : GroupId) : s.Moves (s.recomputeHeight g) := s.modifyGroup_moves g _
theorem State.modifySeam_moves (s : State) (g : GroupId) (k : Nat) (h : Seam → Seam) : s.Moves (s.modifySeam g k h) :=
  s.modifyGroup_moves g _
theorem State.abandonSearch_moves (s : State) : s.Moves s.abandonSearch :=
  (s.abandonRead_moves .seam).trans (State.setEngine_moves _ _)
theorem State.dropJob_moves (s : State) (g : GroupId) (k : Nat) : s.Moves (s.dropJob g k) :=
  s.setSeamQueue_moves _ fun h => (List.length_filter_le _ _).trans h

theorem State.resetSeam_moves (s : State) (g : GroupId) (k : Nat) : s.Moves (s.resetSeam g k) := by
  unfold State.resetSeam
  split
  · exact .refl s
  · exact ((State.Moves.ite s.abandonSearch_moves (.refl s)).trans (State.dropJob_moves _ g k)).trans
      (State.modifySeam_moves _ g k _)

theorem State.queueSeam_moves (s : State) (g : GroupId) (k : Nat) : s.Moves (s.queueSeam g k) := by
  unfold State.queueSeam
  split
  · exact .refl s
  · split
    · exact .refl s
    · split
      · exact (s.setSeamQueue_moves _ (by simp; omega)).trans (State.modifySeam_moves _ g k _)
      · exact s.modifySeam_moves g k _

theorem State.admitWaiting_moves (s : State) (g : GroupId) (k : Nat) : s.Moves (s.admitWaiting g k) := by
  unfold State.admitWaiting
  split
  · exact .refl s
  · split
    · exact (s.setSeamQueue_moves _ (by simp; omega)).trans (State.modifySeam_moves _ g k _)
    · exact .refl s

theorem State.refillQueue_moves (s : State) : s.Moves s.refillQueue :=
  State.Moves.foldl (fun s g => State.Moves.foldl (fun s k => s.admitWaiting_moves g k) _ s) _ s

theorem State.enterGroup_moves (b s : State) (g : GroupId) (st : GroupState) : s.Moves (b.enterGroup s g st) :=
  s.modifyGroup_moves g _

theorem State.testJoined_moves (b s : State) (g : GroupId) : s.Moves (b.testJoined s g) :=
  .ite ((State.enterGroup_moves b s g _).trans (State.raise_moves _ _ _)) (.refl s)

theorem State.testJoining_moves (b s : State) (g : GroupId) : s.Moves (b.testJoining s g) :=
  .ite (((State.enterGroup_moves b s g _).trans (State.Moves.foldl (fun s k => s.queueSeam_moves g k) _ _)).trans
    (State.testJoined_moves _ _ _)) (.refl s)

theorem State.ungather_moves (b s : State) (g : GroupId) (k : Nat) (c : StaleCause) :
    s.Moves (b.ungather s g k c) := by
  unfold State.ungather
  split
  · exact State.enterGroup_moves b s g _
  · exact (State.enterGroup_moves b s g _).trans (State.raise_moves _ _ _)
  · exact .refl s
  · exact .refl s

theorem State.sectionChanged_moves (b s : State) (g : GroupId) (k : Nat) (c : StaleCause) :
    s.Moves (b.sectionChanged s g k c) :=
  (((((s.resetSeam_moves g k).trans (State.resetSeam_moves _ _ _)).trans (State.refillQueue_moves _)).trans
    (State.recomputeHeight_moves _ _)).trans (State.ungather_moves _ _ _ _ _)).trans (State.testJoining_moves _ _ _)

theorem State.setSectionFrame_moves (s : State) (g : GroupId) (k : Nat) (f : Option FrameId) :
    s.Moves (s.setSectionFrame g k f) := s.modifyGroup_moves g _
theorem State.retainFor_moves (s : State) (g : GroupId) (f : FrameId) (b : Bool) : s.Moves (s.retainFor g f b) :=
  State.Moves.foldl (fun s _ => .ite (s.modifyFrame_moves f _) (.refl s)) _ s
theorem State.clearMembership_moves (s : State) (g : GroupId) (f : FrameId) : s.Moves (s.clearMembership g f) :=
  (s.modifyFrame_moves f _).trans (State.retainFor_moves _ _ _ _)

theorem State.leaveSection_moves (b s : State) (f : FrameId) (g : GroupId) (k : Nat) (c : StaleCause) :
    s.Moves (b.leaveSection s f g k c) :=
  ((s.setSectionFrame_moves g k none).trans (State.clearMembership_moves _ _ _)).trans
    (State.sectionChanged_moves _ _ _ _ _)

theorem State.takeFrame_moves (b s : State) (g : GroupId) (k : Nat) (f : FrameId) : s.Moves (b.takeFrame s g k f) := by
  unfold State.takeFrame
  split
  · exact .refl s
  · refine State.Moves.trans ?_ (State.sectionChanged_moves _ _ _ _ _)
    refine State.Moves.trans ?_ (State.retainFor_moves _ _ _ _)
    refine State.Moves.trans ?_ (State.modifyFrame_moves _ _ _)
    refine State.Moves.trans ?_ (State.setSectionFrame_moves _ _ _ _)
    have first : s.Moves (match (s.frame f).mosaic with
        | some (g', k') => b.leaveSection s f g' k' .newFrame
        | none => s) := by
      split
      · exact State.leaveSection_moves _ _ _ _ _ _
      · exact .refl s
    have second : ∀ s1 : State, s1.Moves (match s1.sectionFrame g k with
        | some old => s1.clearMembership g old
        | none => s1) := by
      intro s1
      split
      · exact State.clearMembership_moves _ _ _
      · exact .refl _
    exact first.trans (second _)

theorem State.tellBound_moves (s : State) (f : FrameId) : s.Moves (s.tellBound f) := by
  unfold State.tellBound
  split
  · exact .ite (State.takeFrame_moves _ _ _ _ _) (.refl s)
  · exact .refl s

theorem State.tellSettled_moves (s : State) (f : FrameId) : s.Moves (s.tellSettled f) := by
  unfold State.tellSettled
  split
  · exact State.testJoining_moves _ _ _
  · exact .refl s

theorem State.tellNewPass_moves (s : State) (f : FrameId) : s.Moves (s.tellNewPass f) := by
  unfold State.tellNewPass
  split
  · exact State.sectionChanged_moves _ _ _ _ _
  · exact .refl s

theorem State.tellGone_moves (s : State) (f : FrameId) (c : StaleCause) : s.Moves (s.tellGone f c) := by
  unfold State.tellGone
  split
  · exact State.leaveSection_moves _ _ _ _ _ _
  · exact .refl s

theorem State.dissolveGroup_moves (s : State) (g : GroupId) : s.Moves (s.dissolveGroup g) := by
  unfold State.dissolveGroup
  refine State.Moves.trans ?_ (State.refillQueue_moves _)
  refine State.Moves.trans ?_ (State.setGroup_moves _ _ _)
  refine State.Moves.trans ?_ (State.loseCursors_moves _ _ _)
  refine State.Moves.trans ?_ (State.Moves.foldl (fun s f => s.clearMembership_moves g f) _ _)
  have first : s.Moves (if s.engine.any (fun x => x.group == g) then s.abandonSearch else s) :=
    .ite s.abandonSearch_moves (.refl s)
  refine first.trans ?_
  exact State.setSeamQueue_moves _ _ fun h => (List.length_filter_le _ _).trans h

theorem State.clearMosaics_moves (s : State) : s.Moves s.clearMosaics := by
  have first : s.Moves (if s.engine.isSome then s.abandonSearch else s) := .ite s.abandonSearch_moves (.refl s)
  exact first.trans ⟨rfl, id, fun x => ⟨x.1, x.2.1, Nat.zero_le _⟩, fun _ => rfl⟩

theorem State.recordSeam_moves (s : State) (x : Search) : s.Moves (s.recordSeam x) :=
  ((((s.modifySeam_moves _ _ _).trans (State.setEngine_moves _ _)).trans (State.recomputeHeight_moves _ _)).trans
    (State.testJoining_moves _ _ _)).trans (State.testJoined_moves _ _ _)

theorem State.keepRow_moves (s : State) (x : Search) (p : Option (List Byte)) : s.Moves (s.keepRow x p) :=
  s.setEngine_moves _

theorem State.runSearch_moves : ∀ (n : Nat) (s : State), s.Moves (s.runSearch n)
  | 0, s => .refl s
  | n + 1, s => by
    unfold State.runSearch
    split
    · exact .refl s
    · split
      · exact s.recordSeam_moves _
      · exact .ite (s.placeRead_moves _ _ _ _ _) ((s.keepRow_moves _ _).trans (State.runSearch_moves n _))

theorem State.carrySearch_moves (s : State) : s.Moves s.carrySearch := by
  unfold State.carrySearch
  split
  · exact .refl s
  · exact .ite (.refl s) (State.runSearch_moves _ s)

/-! ### The frame lifecycle unit -/

theorem State.setRow_moves (s : State) (f : FrameId) (r : Nat) (e : RowEntry) : s.Moves (s.setRow f r e) := by
  unfold State.setRow
  split
  · exact .refl s
  · exact s.modifyFrame_moves f _

theorem State.dropReservations_moves (s : State) (t : Target) : s.Moves (s.dropReservations t) :=
  s.setReservations_moves _

theorem State.freeFrame_moves (s : State) (f : FrameId) : s.Moves (s.freeFrame f) := by
  unfold State.freeFrame
  refine State.Moves.trans ?_ (State.dropReservations_moves _ _)
  refine State.Moves.trans ?_ (State.modifyFrame_moves _ _ _)
  refine State.Moves.trans ?_ (State.vanishReads_moves _ _)
  refine State.Moves.trans ?_ (State.tellGone_moves _ _ _)
  refine State.Moves.trans ?_ (State.unmarkRecords_moves _ _)
  refine State.Moves.trans ?_ (State.modifyFrame_moves _ _ _)
  refine State.Moves.trans ?_ (State.loseCursors_moves _ _ _)
  refine State.Moves.trans ?_ (State.releaseView_moves _ _ _)
  exact (s.staleOps_moves f).trans (State.removeUnissued_moves _ _)

theorem State.faultFrame_moves (s : State) (f : FrameId) : s.Moves (s.faultFrame f) := by
  unfold State.faultFrame
  refine .ite ?_ (.refl s)
  refine State.Moves.trans ?_ (State.modifyFrame_moves _ _ _)
  refine State.Moves.trans ?_ (State.faultReads_moves _ _)
  refine State.Moves.trans ?_ (State.tellGone_moves _ _ _)
  refine State.Moves.trans ?_ (State.loseCursors_moves _ _ _)
  refine State.Moves.trans ?_ (State.releaseView_moves _ _ _)
  refine State.Moves.trans ?_ (State.staleOps_moves _ _)
  exact (s.modifyFrame_moves f _).trans
    (State.Moves.foldl (fun s i => .ite (s.sourceFaulted_moves i) (.refl s)) _ _)

theorem State.detachSource_moves (s : State) (f : FrameId) (i : SourceId) : s.Moves (s.detachSource f i) :=
  .ite (.ite (s.modifyFrame_moves f _) (s.modifyFrame_moves f _)) (.refl s)

theorem State.settle_moves (s : State) (f : FrameId) : s.Moves (s.settle f) := by
  unfold State.settle
  refine State.Moves.trans ?_ (State.modifyFrame_moves _ _ _)
  refine State.Moves.iteThen ?_ (State.raise_moves _ _ _)
  refine State.Moves.trans ?_ (State.tellSettled_moves _ _)
  exact .iteThen (s.modifyFrame_moves f _) (State.releaseView_moves _ _ _)

theorem State.settleOvertaken_moves (s : State) (f : FrameId) : s.Moves (s.settleOvertaken f) :=
  .ite (.ite (((s.modifyFrame_moves f _).trans (State.raise_moves _ _ _)).trans (State.modifyFrame_moves _ _ _))
    (s.modifyFrame_moves f _)) (.refl s)

theorem State.joinFrame_moves (s : State) (f : FrameId) (i : SourceId) : s.Moves (s.joinFrame f i) :=
  s.modifyFrame_moves f _
theorem State.rejoinFrame_moves (s : State) (f : FrameId) (i : SourceId) : s.Moves (s.rejoinFrame f i) :=
  s.modifyFrame_moves f _

theorem State.newPass_moves (s : State) (f : FrameId) (i : SourceId) (e : EntryId) (d : EntryFields) :
    s.Moves (s.newPass f i e d) :=
  (((((s.settleOvertaken_moves f).trans (State.staleOps_moves _ _)).trans (State.releaseView_moves _ _ _)).trans
    (State.openView_moves _ _)).trans (State.modifyFrame_moves _ _ _)).trans (State.tellNewPass_moves _ _)

theorem State.freshFrame_moves (s : State) (f : FrameId) (i : SourceId) (k : FrameIdentity) :
    s.Moves (s.freshFrame f i k) := s.modifyFrame_moves f _
theorem State.expectFrame_moves (s : State) (f : FrameId) (k : FrameIdentity) : s.Moves (s.expectFrame f k) :=
  s.modifyFrame_moves f _

theorem State.refitCursors_moves (s : State) (f : FrameId) (r : Nat) : s.Moves (s.refitCursors f r) :=
  State.Moves.foldl (fun s c => by
    show s.Moves (match (s.cursor c).openFields with
      | some k => if (s.cursor c).onFrame f then s.modifyCursor c (fun x => { x with slot := .opened (k.refit r) }) else s
      | none => s)
    split
    · exact .ite (s.modifyCursor_moves c _) (.refl s)
    · exact .refl s) _ s

theorem State.takeExpected_moves (s : State) (f : FrameId) (i : SourceId) (e : EntryId) (d : EntryFields) :
    s.Moves (s.takeExpected f i e d) := (s.modifyFrame_moves f _).trans (State.refitCursors_moves _ _ _)

/-! ### Memory errors -/

theorem State.escalate_moves (s : State) (f : FrameId) (r : Nat) (e : ErrorReport) : s.Moves (s.escalate f r e) :=
  (((s.fileError_moves e false).trans (State.faultFrame_moves _ _)).trans (State.logError_moves _ _)).trans
    (State.raise_moves _ _ _)

theorem State.memoryError_moves (s : State) (f : FrameId) (r : Nat) (e : ErrorReport) : s.Moves (s.memoryError f r e) :=
  .ite (.ite (s.escalate_moves f r e) (.ite (s.fileError_moves e false)
    ((s.modifyFrame_moves f _).trans (State.fileError_moves _ _ _)))) (s.fileError_moves e false)

theorem State.readCorrupt_moves (s : State) (f : FrameId) (r d : Nat) : s.Moves (s.readCorrupt f r d) := by
  unfold State.readCorrupt
  split
  · exact .refl s
  · exact (s.setRow_moves f r _).trans (State.memoryError_moves _ _ _ _)

theorem State.poolCorrupt_moves (s : State) (f : FrameId) (r : Nat) (p : PoolRow) (k d : Nat) :
    s.Moves (s.poolCorrupt f r p k d) := by
  unfold State.poolCorrupt
  split
  · exact .refl s
  · exact ((s.setRow_moves f r _).trans (State.returnPoolRow_moves _ _ _ _)).trans (State.memoryError_moves _ _ _ _)

/-! ### Reads -/

theorem State.finishJob_moves (s : State) (c : CursorId) (x : CursorFields) (j : ReadJob) (st : Status) :
    s.Moves (s.finishJob c x j st) := (s.setCursor_moves c _).trans (State.answer_moves _ _ _ _)
theorem State.parkJob_moves (s : State) (c : CursorId) (j : ReadJob) (p : JobPhase) : s.Moves (s.parkJob c j p) :=
  s.modifyCursor_moves c _

theorem State.runJob_moves : ∀ (n : Nat) (s : State) (c : CursorId), s.Moves (s.runJob n c)
  | 0, s, _ => .refl s
  | n + 1, s, c => by
    unfold State.runJob
    split
    · split
      · exact s.finishJob_moves c _ _ _
      · refine .ite (s.finishJob_moves c _ _ _) ?_
        split
        · exact (s.parkJob_moves c _ _).trans (State.runJob_moves n _ c)
        · exact .ite (s.parkJob_moves c _ _) ((s.placeRead_moves _ _ _ _ _).trans (State.parkJob_moves _ _ _ _))
    · exact .refl s
    · exact .refl s

theorem State.resumeJob_moves (s : State) (c : CursorId) : s.Moves (s.resumeJob c) := by
  unfold State.resumeJob
  split
  · exact .ite (State.runJob_moves _ s c) (.refl s)
  · exact .refl s

theorem State.resumeJobs_moves (s : State) : s.Moves s.resumeJobs :=
  State.Moves.foldl (fun s c => s.resumeJob_moves c) _ s

theorem State.startJob_moves (s : State) (c : CursorId) (k : JobKind) : s.Moves (s.startJob c k) :=
  (s.modifyCursor_moves c _).trans (State.runJob_moves _ _ c)

theorem State.keepItem_moves (s : State) (c : CursorId) (j : ReadJob) (i : Option RowItem) : s.Moves (s.keepItem c j i) :=
  s.parkJob_moves c _ _

theorem State.answerCursor_moves (s : State) (c : CursorId) (r : ReadRequest) (g : Option (List Byte)) :
    s.Moves (s.answerCursor c r g) := by
  unfold State.answerCursor
  split
  · split
    · exact .refl s
    · refine .ite (s.keepItem_moves c _ _) ?_
      split
      · exact s.keepItem_moves c _ _
      · exact s.keepItem_moves c _ _
      · exact s.keepItem_moves c _ _
  · exact .refl s
  · exact .refl s

theorem State.answerSeam_moves (s : State) (r : ReadRequest) (g : Option (List Byte)) : s.Moves (s.answerSeam r g) := by
  unfold State.answerSeam
  split
  · exact .refl s
  · exact .ite (s.keepRow_moves _ _) (s.keepRow_moves _ _)

theorem State.answerRead_moves (s : State) (h : ReadHolder) (r : ReadRequest) (g : Option (List Byte)) :
    s.Moves (s.answerRead h r g) := by
  unfold State.answerRead
  refine .ite (.refl s) ?_
  split
  · exact s.answerCursor_moves _ r g
  · exact s.answerSeam_moves r g

theorem State.reportCorrupt_moves (s : State) (h : ReadHolder) (r : ReadRequest) (n : Bool) :
    s.Moves (s.reportCorrupt h r n) := by
  unfold State.reportCorrupt
  refine .ite (.refl s) ?_
  split
  · exact s.readCorrupt_moves _ _ _
  · exact .ite (.refl s) (s.poolCorrupt_moves _ _ _ _ _)

theorem State.returnRead_moves (s : State) (h : ReadHolder) (r : ReadRequest) (b : Option (List Byte)) :
    s.Moves (s.returnRead h r b) :=
  ((s.emptyHolder_moves h).trans (State.Moves.ite (.refl _) (State.reportCorrupt_moves _ _ _ _))).trans
    (State.answerRead_moves _ _ _ _)

/-! ### Binding and the end of an event -/

theorem State.handOver_moves (s : State) (o : Option FrameId) (f : FrameId) : s.Moves (s.handOver o f) := by
  unfold State.handOver
  split
  · exact .refl s
  · exact .ite (.refl s) (s.modifyFrame_moves _ _)

theorem State.bindSource_moves (s : State) (i : SourceId) (f : FrameId) : s.Moves (s.bindSource i f) := by
  unfold State.bindSource
  split
  · exact .refl s
  · exact s.modifySource_moves i _

theorem State.discardStream_moves (s : State) (i : SourceId) : s.Moves (s.discardStream i) := s.modifySource_moves i _

theorem State.handOn_moves (s : State) (i : SourceId) (f : FrameId) (k : BindingKind) (a b : Bool) :
    s.Moves (s.handOn i f k a b) :=
  (((s.bindSource_moves i f).trans (State.Moves.ite (State.tellBound_moves _ _) (.refl _))).trans
    (State.Moves.ite (State.raise_moves _ _ _) (.refl _))).trans (State.raise_moves _ _ _)

theorem State.bindFresh_moves (s : State) (i : SourceId) (k : FrameIdentity) (o : Option FrameId) :
    s.Moves (s.bindFresh i k o) := by
  unfold State.bindFresh
  dsimp only
  split
  · exact ((s.handOver_moves o _).trans (State.freshFrame_moves _ _ _ _)).trans (State.handOn_moves _ _ _ _ _ _)
  · split
    · exact (((s.freeFrame_moves _).trans (State.handOver_moves _ _ _)).trans (State.freshFrame_moves _ _ _ _)).trans
        (State.handOn_moves _ _ _ _ _ _)
    · exact (s.discardStream_moves i).trans (State.logError_moves _ _)

theorem State.bindStart_moves (s : State) (i : SourceId) (x : StartRecord) : s.Moves (s.bindStart i x) := by
  have free : s.Moves (s.bindUnscheduled i x) :=
    .ite (s.bindFresh_moves i _ none) ((s.discardStream_moves i).trans (State.raise_moves _ _ _))
  unfold State.bindStart
  refine .ite ?_ free
  split
  · unfold State.bindScheduled
    split
    · exact (s.joinFrame_moves _ i).trans (State.handOn_moves _ _ _ _ _ _)
    · exact (s.rejoinFrame_moves _ i).trans (State.handOn_moves _ _ _ _ _ _)
    · exact (s.newPass_moves _ i _ _).trans (State.handOn_moves _ _ _ _ _ _)
    · exact (s.takeExpected_moves _ i _ _).trans (State.handOn_moves _ _ _ _ _ _)
    · exact s.bindFresh_moves i _ _
  · exact free

theorem State.takeHeldStart_moves (s : State) (i : SourceId) : s.Moves (s.takeHeldStart i) := by
  unfold State.takeHeldStart
  dsimp only
  split
  · exact .refl s
  · exact .ite ((s.modifySource_moves i _).trans (State.bindStart_moves _ _ _)) (.refl s)

theorem State.closeEvent_moves (s : State) : s.Moves s.closeEvent :=
  ((State.Moves.foldl (fun s i => s.takeHeldStart_moves i) _ s).trans (State.carrySearch_moves _)).trans
    (State.resumeJobs_moves _)

end Sys2Proof.Machine
end

