-- ==== Sys2Proof/Laws/Requests.lean ====
section
/-! SUPPORT. How a port meets a request, what a table number names, and the end of an event on a state in which nothing
waits for it. -/

namespace Sys2Proof.Machine

/-! ### Requests (R175, R176) -/

theorem State.request_of_accepts {s : State} {n : ClientId} {classes : List CommandClass} (h : s.accepts n classes)
    (tag : Nat) (run : State → State) : s.request n tag classes run = run (s.beginCommand n tag) := by
  unfold State.request
  rcases h with ⟨h | h, hc⟩ <;> simp [h, hc]

theorem State.request_denied {s : State} {n : ClientId} {classes : List CommandClass}
    (h : (s.port n).state = .idle ∨ (s.port n).state = .done) (hc : (s.port n).holds classes = false) (tag : Nat)
    (run : State → State) : s.request n tag classes run = s.withAnswer n tag .denied [] := by
  unfold State.request State.withAnswer
  rcases h with h | h <;> simp [h, hc]

theorem State.request_starting {s : State} {n : ClientId} (h : (s.port n).state = .starting) (tag : Nat)
    (classes : List CommandClass) (run : State → State) : s.request n tag classes run = s := by
  simp [State.request, h]

theorem State.request_executing {s : State} {n : ClientId} (h : (s.port n).state = .executing) (tag : Nat)
    (classes : List CommandClass) (run : State → State) :
    s.request n tag classes run = s.setPort n { s.port n with busyTag := some tag } := by
  simp [State.request, h, State.answerBusy]

/-! ### Table numbers -/

@[simp] theorem indexOf_val {n : Nat} (i : Fin n) : indexOf n i.val = some i := by simp [indexOf]

theorem indexOf_of_le {n k : Nat} (h : n ≤ k) : indexOf n k = none := by
  simp only [indexOf, dite_eq_right_iff, reduceCtorEq, imp_false]
  omega

/-! ### The end of an event (log 12) -/

theorem State.takeHeldStart_of_atRest {s : State} (h : s.atRest) (i : SourceId) : s.takeHeldStart i = s := by
  unfold State.takeHeldStart
  cases hh : (s.source i).held with
  | none => simp [hh]
  | some x =>
    have := h.1 i (by simp [hh])
    by_cases hs : (s.source i).state = .idle
    · have hb := this hs
      cases hk : (s.source i).binding with
      | none => simp [hk] at hb
      | some b => simp [hh, hk]
    · simp [hh, hs]

theorem State.carrySearch_of_atRest {s : State} (h : s.atRest) : s.carrySearch = s := by
  unfold State.carrySearch
  cases he : s.engine with
  | none => rfl
  | some x => simp [h.2.1 (by simp [he])]

/-- A command with no open cursor has nothing to resume. -/
theorem State.runJob_of_not_open (fuel : Nat) {s : State} {c : CursorId} (h : (s.cursor c).openFields = none) :
    s.runJob fuel c = s := by
  cases fuel with
  | zero => rfl
  | succ n => simp [State.runJob, h]

theorem State.resumeJob_of_atRest {s : State} (h : s.atRest) (c : CursorId) : s.resumeJob c = s := by
  unfold State.resumeJob
  cases hj : (s.cursor c).job with
  | none => rfl
  | some j =>
    by_cases hp : j.phase = .retake
    · cases ho : (s.cursor c).openFields with
      | none => simp only [State.runJob_of_not_open _ ho, ite_self]
      | some k =>
        have := h.2.2 c (by simp [ho]) j (by simp [hj]) hp
        have hn : (s.holder (.cursor c)).isNone = false := by
          cases hh : s.holder (.cursor c) <;> simp_all
        simp [hn]
    · simp [hp]

/-- Nothing follows an event that leaves nothing waiting. -/
theorem State.closeEvent_of_atRest {s : State} (h : s.atRest) : s.closeEvent = s := by
  have fold {α : Type} (g : State → α → State) (hg : ∀ a, g s a = s) (l : List α) : l.foldl g s = s := by
    induction l with
    | nil => rfl
    | cons a l ih => rw [List.foldl_cons, hg, ih]
  unfold State.closeEvent
  rw [fold (fun s i => s.takeHeldStart i) (State.takeHeldStart_of_atRest h), State.carrySearch_of_atRest h]
  exact fold (fun s c => s.resumeJob c) (State.resumeJob_of_atRest h) _

end Sys2Proof.Machine
end

