-- ==== Sys2Proof/Laws/Views.lean ====
section
/-! SUPPORT. Views and the cursors that read through them: what leaves their links as they are, and how losing a cursor,
releasing and opening a view, and attaching and detaching a cursor keep each view's count true (R88 to R92). -/

namespace Sys2Proof.Machine

/-- From `s` to `t` no frame takes or loses a view or becomes FREE, no view changes its frame or its count, and the cursors
that `gone` names, and no others, leave off reading through PREVIOUS. -/
structure State.Relinks (s t : State) (gone : CursorId → Bool) : Prop where
  frames  : ∀ f, (t.frame f).view = (s.frame f).view ∧ ((t.frame f).state = .free → (s.frame f).state = .free)
  views   : ∀ v, (t.view v).map (fun y => (y.frame, y.cursors)) = (s.view v).map (fun y => (y.frame, y.cursors))
  cursors : ∀ c f, (t.cursor c).onPrevious f = (!gone c && (s.cursor c).onPrevious f)

/-- From `s` to `t` the links between frames, views and cursors stay. -/
abbrev State.SameLinks (s t : State) : Prop := s.Relinks t (fun _ => false)

theorem State.Relinks.trans {s t u : State} {g h : CursorId → Bool} (a : s.Relinks t g) (b : t.Relinks u h) :
    s.Relinks u (fun c => g c || h c) :=
  ⟨fun f => ⟨(b.frames f).1.trans (a.frames f).1, fun x => (a.frames f).2 ((b.frames f).2 x)⟩,
    fun v => (b.views v).trans (a.views v), fun c f => by
      rw [b.cursors, a.cursors]; cases g c <;> cases h c <;> simp⟩

theorem State.SameLinks.refl (s : State) : s.SameLinks s :=
  ⟨fun _ => ⟨rfl, id⟩, fun _ => rfl, fun _ _ => by simp⟩

theorem State.SameLinks.trans {s t u : State} (a : s.SameLinks t) (b : t.SameLinks u) : s.SameLinks u := by
  simpa using State.Relinks.trans a b

/-- A change of none of the tables concerned. -/
theorem State.SameLinks.of_eq {s t : State} (hf : t.frames = s.frames) (hv : t.views = s.views)
    (hc : t.cursors = s.cursors) : s.SameLinks t :=
  ⟨fun f => by simp [State.frame, hf], fun v => by simp [State.view, hv], fun c f => by simp [State.cursor, hc]⟩

theorem State.SameLinks.foldl {α : Type} {g : State → α → State} (hg : ∀ (s : State) (a : α), s.SameLinks (g s a)) :
    ∀ (l : List α) (s : State), s.SameLinks (l.foldl g s)
  | [], s => .refl s
  | a :: l, s => (hg s a).trans (State.SameLinks.foldl hg l (g s a))

/-- Where the links stay, each view's count stays true. -/
theorem State.SameLinks.viewsOk {s t : State} (h : s.SameLinks t) (k : s.viewsOk) : t.viewsOk := by
  have hc : ∀ c f, (t.cursor c).onPrevious f = (s.cursor c).onPrevious f := fun c f => by simpa using h.cursors c f
  refine ⟨fun f v hv => ?_, fun c f hp => (h.frames f).1 ▸ k.2 c f (hc c f ▸ hp)⟩
  obtain ⟨hs, y, hy, hf, hn⟩ := k.1 f v ((h.frames f).1 ▸ hv)
  refine ⟨fun hfree => hs ((h.frames f).2 hfree), ?_⟩
  have hm := h.views v
  rw [Option.mem_def.mp hy] at hm
  cases ht : t.view v with
  | none => simp [ht] at hm
  | some z =>
    simp only [ht, Option.map_some, Option.some.injEq, Prod.mk.injEq] at hm
    exact ⟨z, rfl, hm.1.trans hf, by simp only [hc, hm.2, hn]⟩

/-! ### Single writes -/

theorem State.modifyFrame_links (s : State) (f : FrameId) (g : Frame → Frame) (hv : (g (s.frame f)).view = (s.frame f).view)
    (hs : (g (s.frame f)).state = .free → (s.frame f).state = .free) : s.SameLinks (s.modifyFrame f g) := by
  refine ⟨fun f' => ?_, fun _ => rfl, fun _ _ => rfl⟩
  unfold State.modifyFrame
  rw [State.frame_setFrame]
  split
  · subst_vars; exact ⟨hv, hs⟩
  · exact ⟨rfl, id⟩

theorem State.setFrames_links (s : State) (g : Frame → Frame) (hv : ∀ x, (g x).view = x.view) (hs : ∀ x, (g x).state = x.state) :
    s.SameLinks { s with frames := s.frames.map g } :=
  ⟨fun f => by simp [State.frame, hv, hs], fun _ => rfl, fun _ _ => rfl⟩

theorem State.modifyView_links (s : State) (v : ViewId) (g : View → View)
    (h : ∀ y, (g y).frame = y.frame ∧ (g y).cursors = y.cursors) : s.SameLinks (s.modifyView v g) := by
  refine ⟨fun _ => ⟨rfl, id⟩, fun v' => ?_, fun _ _ => rfl⟩
  unfold State.modifyView
  rw [State.view_setView]
  split
  · subst_vars; cases s.view _ <;> simp [h]
  · rfl

theorem State.setCursor_links (s : State) (c : CursorId) (x : Cursor) (h : ∀ f, x.onPrevious f = (s.cursor c).onPrevious f) :
    s.SameLinks (s.setCursor c x) := by
  refine ⟨fun _ => ⟨rfl, id⟩, fun _ => rfl, fun c' f => ?_⟩
  rw [State.cursor_setCursor]
  split
  · subst_vars; simpa using h f
  · rfl

/-- A cursor takes a record that reads through no view. -/
theorem State.setCursor_relinks (s : State) (c : CursorId) (x : Cursor) (h : ∀ f, x.onPrevious f = false) :
    s.Relinks (s.setCursor c x) (fun d => decide (d = c)) := by
  refine ⟨fun _ => ⟨rfl, id⟩, fun _ => rfl, fun c' f => ?_⟩
  rw [State.cursor_setCursor]
  split
  · subst_vars; simpa using h f
  · simp [*]

theorem State.modifyHolder_links (s : State) (h : ReadHolder) (g : ReadRequest → ReadRequest) :
    s.SameLinks (s.modifyHolder h g) := by
  cases h <;> exact .of_eq rfl rfl rfl

theorem State.offerTo_links (s : State) (n : ClientId) (o : Origin) (d : NoticeDetail) : s.SameLinks (s.offerTo n o d) := by
  exact .of_eq rfl rfl rfl

theorem State.raise_links (s : State) (o : Origin) (d : NoticeDetail) : s.SameLinks (s.raise o d) := by
  unfold State.raise
  exact State.SameLinks.foldl (g := fun s n => s.offerTo n o d) (fun s n => s.offerTo_links n o d) _ s

theorem State.answer_links (s : State) (n : ClientId) (st : Status) (b : List Byte) : s.SameLinks (s.answer n st b) :=
  .of_eq rfl rfl rfl

/-! ### Cursors' holds and commands -/

theorem State.unpinCursor_links (s : State) (c : CursorId) : s.SameLinks (s.unpinCursor c) :=
  s.setFrames_links _ (fun _ => rfl) (fun _ => rfl)

theorem State.pinCursor_links (s : State) (c : CursorId) (a : Attachment) : s.SameLinks (s.pinCursor c a) :=
  .foldl (fun s f => s.modifyFrame_links f _ rfl id) _ s

theorem State.cutJob_links (s : State) (c : CursorId) (st : Status) : s.SameLinks (s.cutJob c st) := by
  unfold State.cutJob
  split
  · exact .refl s
  · exact State.SameLinks.trans (s.setCursor_links c { s.cursor c with job := none } (fun _ => rfl)) (State.answer_links _ _ _ _)

theorem State.markViewGone_links (s : State) (f : FrameId) : s.SameLinks (s.markViewGone f) := by
  unfold State.markViewGone
  exact .foldl (fun s h => s.modifyHolder_links h _) _ s

theorem Cursor.onPrevious_unique {x : Cursor} {f g : FrameId} (h : x.onPrevious f = true) (k : x.onPrevious g = true) :
    f = g := by
  unfold Cursor.onPrevious at h k
  cases hx : x.openFields with
  | none => simp [hx] at h
  | some y => simp_all

theorem Cursor.onPrevious_of_not_open {x : Cursor} (h : x.openFields = none) (f : FrameId) : x.onPrevious f = false := by
  simp [Cursor.onPrevious, h]

/-- A cursor that becomes LOST leaves off reading, and its view's count as it is: the view is going. -/
theorem State.loseCursor_relinks (s : State) (c : CursorId) (cause : LostCause) :
    s.Relinks (s.loseCursor c cause) (fun d => decide (d = c)) := by
  unfold State.loseCursor
  cases h : (s.cursor c).openFields with
  | none =>
    refine ⟨fun _ => ⟨rfl, id⟩, fun _ => rfl, fun d f => ?_⟩
    by_cases hd : d = c <;> simp [hd, Cursor.onPrevious_of_not_open h f]
  | some k =>
    have a := State.SameLinks.trans (State.SameLinks.trans (s.unpinCursor_links c) (State.cutJob_links _ c .lost))
      (State.modifyHolder_links _ (.cursor c) (fun r => { r with abandoned := true }))
    set u := ((s.unpinCursor c).cutJob c .lost).modifyHolder (.cursor c) (fun r => { r with abandoned := true })
    have b := State.Relinks.trans a (u.setCursor_relinks c { u.cursor c with slot := .lost k } (fun _ => rfl))
    have d := b.trans (State.raise_links _ (.client (ownerOf c)) (lostDetail c cause k.attachment))
    simp only [Bool.false_or, Bool.or_false] at d
    exact d

/-- The cursors that read through the view of a frame become LOST. -/
theorem State.loseCursors_relinks (s : State) (f : FrameId) (cause : LostCause) :
    s.Relinks (s.loseCursors (fun x => x.onPrevious f) cause) (fun c => (s.cursor c).onPrevious f) := by
  have fold : ∀ (l : List CursorId) (s : State),
      s.Relinks (l.foldl (fun s c => if (s.cursor c).onPrevious f then s.loseCursor c cause else s) s)
        (fun c => decide (c ∈ l) && (s.cursor c).onPrevious f) := by
    intro l
    induction l with
    | nil => intro s; simpa using State.SameLinks.refl s
    | cons a l ih =>
      intro s
      rw [List.foldl_cons]
      split
      · rename_i ha
        have h := (s.loseCursor_relinks a cause).trans (ih (s.loseCursor a cause))
        have e : (fun c => decide (c ∈ a :: l) && (s.cursor c).onPrevious f) = (fun c => decide (c = a) ||
            (decide (c ∈ l) && ((s.loseCursor a cause).cursor c).onPrevious f)) := by
          funext c
          rw [(s.loseCursor_relinks a cause).cursors]
          by_cases hc : c = a <;> simp [hc, ha]
        exact e ▸ h
      · rename_i ha
        have e : (fun c => decide (c ∈ a :: l) && (s.cursor c).onPrevious f) =
            (fun c => decide (c ∈ l) && (s.cursor c).onPrevious f) := by
          funext c
          by_cases hc : c = a <;> simp_all
        exact e ▸ ih s
  have e : (fun c => (s.cursor c).onPrevious f) = (fun c => decide (c ∈ allCursors) && (s.cursor c).onPrevious f) := by
    funext c
    have : c ∈ allCursors := by revert c; decide
    simp [this]
  rw [e]
  exact fold allCursors s

/-! ### Views -/

theorem State.frame_view_write (w : State) (v : ViewId) (y : Option View) (f : FrameId) (o : Option ViewId) (g : FrameId) :
    ((w.setView v y).modifyFrame f (fun x => { x with view := o })).frame g =
      if g = f then { w.frame f with view := o } else w.frame g := by
  unfold State.modifyFrame
  rw [State.frame_setFrame]
  rfl

theorem State.view_view_write (w : State) (v : ViewId) (y : Option View) (f : FrameId) (o : Option ViewId) (v' : ViewId) :
    ((w.setView v y).modifyFrame f (fun x => { x with view := o })).view v' = if v' = v then y else w.view v' :=
  State.view_setView w v v' y

theorem State.cursor_view_write (w : State) (v : ViewId) (y : Option View) (f : FrameId) (o : Option ViewId) (c : CursorId) :
    ((w.setView v y).modifyFrame f (fun x => { x with view := o })).cursor c = w.cursor c := rfl

/-- The cursors on a frame's view before a step that keeps the links are those on it after. -/
theorem State.SameLinks.relinks {s u w : State} {f : FrameId} (a : s.SameLinks u)
    (b : u.Relinks w (fun c => (u.cursor c).onPrevious f)) : s.Relinks w (fun c => (s.cursor c).onPrevious f) := by
  have e : (fun c => (u.cursor c).onPrevious f) = (fun c => (s.cursor c).onPrevious f) :=
    funext fun c => by simpa using a.cursors c f
  simpa [e] using State.Relinks.trans a b

/-- Once the cursors of a frame's view have left it, the view slot and the frame's link go. -/
theorem State.viewsOk_cleared {s w : State} (h : s.viewsOk) {f : FrameId} {v : ViewId} (hv : (s.frame f).view = some v)
    (b : s.Relinks w (fun c => (s.cursor c).onPrevious f)) :
    ((w.setView v none).modifyFrame f (fun x => { x with view := none })).viewsOk := by
  have hw : ∀ g, g ≠ f → ∀ c, (w.cursor c).onPrevious g = (s.cursor c).onPrevious g := fun g hg c => by
    rw [b.cursors]
    cases hc : (s.cursor c).onPrevious f
    · simp
    · cases hk : (s.cursor c).onPrevious g
      · simp
      · exact absurd (Cursor.onPrevious_unique hk hc) hg
  refine ⟨fun g v' hg => ?_, fun c g hc => ?_⟩
  · rw [State.frame_view_write] at hg ⊢
    by_cases hgf : g = f
    · simp [hgf] at hg
    · simp only [hgf, if_false] at hg ⊢
      rw [(b.frames g).1] at hg
      obtain ⟨hs, y, hy, hyf, hn⟩ := h.1 g v' hg
      refine ⟨fun hfree => hs ((b.frames g).2 hfree), ?_⟩
      have hne : v' ≠ v := fun e => by
        obtain ⟨-, z, hz, hzf, -⟩ := h.1 f v hv
        subst e
        rw [Option.mem_def] at hy hz
        rw [hy] at hz
        cases hz
        exact hgf (hyf.symm.trans hzf)
      have hm := b.views v'
      rw [Option.mem_def.mp hy] at hm
      cases hz : w.view v' with
      | none => simp [hz] at hm
      | some z =>
        simp only [hz, Option.map_some, Option.some.injEq, Prod.mk.injEq] at hm
        refine ⟨z, by rw [State.view_view_write, if_neg hne, hz]; rfl, hm.1.trans hyf, ?_⟩
        simp only [State.cursor_view_write, hw g hgf, hm.2, hn]
  · rw [State.cursor_view_write] at hc
    have hgf : g ≠ f := fun e => by
      rw [b.cursors, e] at hc
      cases hk : (s.cursor c).onPrevious f <;> simp [hk] at hc
    rw [State.frame_view_write, if_neg hgf, (b.frames g).1]
    exact h.2 c g (by rw [← hw g hgf c]; exact hc)

/-- Releasing the view of a frame: the frame has none, nothing reads through it, and the other views stay. -/
theorem State.releaseView_viewsOk {s : State} (h : s.viewsOk) (f : FrameId) (cause : LostCause) :
    (s.releaseView f cause).viewsOk ∧ ((s.releaseView f cause).frame f).view = none := by
  unfold State.releaseView
  cases hv : (s.frame f).view with
  | none => exact ⟨h, hv⟩
  | some v =>
    have a := State.SameLinks.trans (State.SameLinks.trans (s.markViewGone_links f) (.of_eq
      (t := { s.markViewGone f with pool := (s.markViewGone f).pool.map (fun h => if h.any (fun k => k.view == v) then none else h) })
      rfl rfl rfl)) (State.modifyFrame_links _ f (fun x => { x with rowMap := x.rowMap.map RowEntry.viewReleased }) rfl id)
    refine ⟨State.viewsOk_cleared h hv (a.relinks (State.loseCursors_relinks _ f cause)), ?_⟩
    rw [State.frame_view_write, if_pos rfl]

/-- Opening a view of a frame that has none (R89). -/
theorem State.openView_viewsOk {s : State} (h : s.viewsOk) (f : FrameId) (hv : (s.frame f).view = none)
    (hs : (s.frame f).state ≠ .free) : (s.openView f).viewsOk := by
  unfold State.openView
  cases hf : s.freeView with
  | none => exact h
  | some v =>
    have hfree : s.view v = none := by
      have := List.find?_some hf
      simpa using this
    have hno : ∀ c, (s.cursor c).onPrevious f = false := fun c => by
      cases hc : (s.cursor c).onPrevious f
      · rfl
      · exact absurd hv (h.2 c f hc)
    refine ⟨fun g v' hg => ?_, fun c g hc => ?_⟩
    · rw [State.frame_view_write] at hg ⊢
      by_cases hgf : g = f
      · subst hgf
        simp only [if_true, Option.some.injEq] at hg ⊢
        subst hg
        refine ⟨hs, _, by rw [State.view_view_write, if_pos rfl]; rfl, rfl, ?_⟩
        symm
        rw [List.length_eq_zero_iff, List.filter_eq_nil_iff]
        intro c _
        rw [State.cursor_view_write, hno c]
        decide
      · simp only [hgf, if_false] at hg ⊢
        obtain ⟨hn, y, hy, hyf, hc⟩ := h.1 g v' hg
        refine ⟨hn, y, ?_, hyf, hc⟩
        rw [State.view_view_write]
        split
        · subst_vars; rw [Option.mem_def, hfree] at hy; cases hy
        · exact hy
    · rw [State.frame_view_write]
      split
      · simp
      · exact h.2 c g hc

end Sys2Proof.Machine
end

