-- ==== Sys2Proof/Tests/Slice0.lean ====
section
/-! SUPPORT. The model's own tests. First the smoke tests of `Instr.wellFormed` and of the byte decoders; then, for each
statement with hypotheses, a theorem `witness_<statement>` that shows small states and operands which meet them, one for
each clause, with what the command then does; then a few worked examples of the spec. -/

namespace Sys2Proof.Tests

open Sys2Proof Sys2Proof.Machine

set_option Elab.async false
set_option maxRecDepth 20000
set_option synthInstance.maxSize 4000
set_option synthInstance.maxHeartbeats 400000

/-! ### Ill-formed commands -/

/-- A SCHEDULE_WRITE body that is in range throughout. -/
def entryArgs : EntryArgs where
  state := 1
  station := 12
  product := 410
  startMinute := 540
  tolerance := 5
  frequencyCount := 1
  frequencies := [42980, 0, 0, 0]
  drum := 0
  rate := 1
  direction := 0
  rows := 4
  days := 127#8
  repeatOf := 255
  dayShift := 0

def noSourceArgs : SourceConfigArgs where
  source := 0
  phasingCount := none
  skewLimit := none
  trackWindow := none
  missedLimit := none
  fadeLimit := none
  adHoc := none
  clearCounters := false

def noStoreArgs : StoreConfigArgs where
  firmThreshold := none
  replaceMargin := none
  settleTime := none
  completePerMille := none
  seamAcceptLimit := none

def openArgs : CursorOpenArgs where
  cursor := 0
  kind := .current
  number := 0
  window := none
  position := none
  step := none
  follow := false
  retain := false

def setArgs : CursorSetArgs where
  cursor := 0
  attachment := none
  window := none
  position := none
  step := none
  hints := none

theorem test_wellFormed_accepts_what_a_link_or_port_delivers :
    (Instr.start 0 20000 .narrow .lpm60).wellFormed ∧ (Instr.start 0 300000 .narrow .lpm60).wellFormed
      ∧ (Instr.image 0 4095 65535 255 (List.replicate 448 0#8)).wellFormed
      ∧ (Instr.scheduleWrite 0 255 255 entryArgs).wellFormed ∧ (Instr.setClock 0 0 16777215 65535 255).wellFormed := by
  decide

theorem test_wellFormed_refuses_link_fields_out_of_range :
    (Instr.start 0 19999 .narrow .lpm60).wellFormed = false ∧ (Instr.start 0 300001 .narrow .lpm60).wellFormed = false
      ∧ (Instr.phase 0 4096 0).wellFormed = false ∧ (Instr.phase 0 0 65536).wellFormed = false
      ∧ (Instr.image 0 4096 0 0 (List.replicate 448 0#8)).wellFormed = false
      ∧ (Instr.image 0 0 65536 0 (List.replicate 448 0#8)).wellFormed = false
      ∧ (Instr.image 0 0 0 256 (List.replicate 448 0#8)).wellFormed = false
      ∧ (Instr.image 0 0 0 0 (List.replicate 447 0#8)).wellFormed = false := by decide

theorem test_wellFormed_refuses_tags_above_255 :
    (Instr.requestWhileBusy 0 (some 256)).wellFormed = false
      ∧ (Instr.requestRefused 0 (some 256) .check).wellFormed = false ∧ (Instr.getInfo 0 256).wellFormed = false
      ∧ (Instr.getClock 0 256).wellFormed = false ∧ (Instr.frameList 0 256).wellFormed = false
      ∧ (Instr.storeClear 0 256).wellFormed = false ∧ (Instr.portReset 0 256).wellFormed = false
      ∧ (Instr.cursorClose 0 256 0).wellFormed = false := by decide

theorem test_wellFormed_refuses_numbers_above_their_field :
    (Instr.setClock 0 0 16777216 0 0).wellFormed = false ∧ (Instr.setClock 0 0 0 65536 0).wellFormed = false
      ∧ (Instr.setClock 0 0 0 0 256).wellFormed = false ∧ (Instr.sourceStatus 0 0 256).wellFormed = false
      ∧ (Instr.frameInfo 0 0 256).wellFormed = false ∧ (Instr.scheduleRead 0 0 256).wellFormed = false
      ∧ (Instr.mosaicInfo 0 0 256).wellFormed = false ∧ (Instr.prepare 0 0 256 0 0).wellFormed = false
      ∧ (Instr.prepare 0 0 0 256 0).wellFormed = false ∧ (Instr.prepare 0 0 0 0 65536).wellFormed = false
      ∧ (Instr.reserve 0 0 .entry 256).wellFormed = false ∧ (Instr.scheduleSuspend 0 0 256).wellFormed = false
      ∧ (Instr.scheduleVacate 0 0 256).wellFormed = false ∧ (Instr.frameRelease 0 0 256).wellFormed = false
      ∧ (Instr.mosaicDissolve 0 0 256).wellFormed = false ∧ (Instr.pin 0 0 256).wellFormed = false
      ∧ (Instr.unpin 0 0 256).wellFormed = false := by decide

theorem test_wellFormed_refuses_bodies_with_a_field_too_wide :
    (Instr.sourceConfig 0 0 { noSourceArgs with source := 256 }).wellFormed = false
      ∧ (Instr.sourceConfig 0 0 { noSourceArgs with phasingCount := some 256 }).wellFormed = false
      ∧ (Instr.sourceConfig 0 0 { noSourceArgs with adHoc := some 256 }).wellFormed = false
      ∧ (Instr.storeConfig 0 0 { noStoreArgs with firmThreshold := some 256 }).wellFormed = false
      ∧ (Instr.storeConfig 0 0 { noStoreArgs with settleTime := some 65536 }).wellFormed = false
      ∧ (Instr.scheduleWrite 0 0 256 entryArgs).wellFormed = false
      ∧ (Instr.scheduleWrite 0 0 0 { entryArgs with product := 65536 }).wellFormed = false
      ∧ (Instr.scheduleWrite 0 0 0 { entryArgs with frequencies := [42980, 0, 0] }).wellFormed = false
      ∧ (Instr.scheduleWrite 0 0 0 { entryArgs with frequencies := [16777216, 0, 0, 0] }).wellFormed = false
      ∧ (Instr.frameAnnotate 0 0 0 256 []).wellFormed = false
      ∧ (Instr.frameAnnotate 0 0 0 0 (List.replicate 256 32#8)).wellFormed = false
      ∧ (Instr.mosaicDefine 0 0 256 []).wellFormed = false
      ∧ (Instr.mosaicDefine 0 0 0 [(256, 0)]).wellFormed = false := by decide

theorem test_wellFormed_refuses_reads_notices_and_errors_too_wide :
    (Instr.cursorOpen 0 0 { openArgs with number := 256 }).wellFormed = false
      ∧ (Instr.cursorOpen 0 0 { openArgs with window := some (0, 65536) }).wellFormed = false
      ∧ (Instr.cursorOpen 0 0 { openArgs with step := some 128 }).wellFormed = false
      ∧ (Instr.cursorSet 0 0 { setArgs with attachment := some (.current, 256) }).wellFormed = false
      ∧ (Instr.cursorSet 0 0 { setArgs with position := some 65536 }).wellFormed = false
      ∧ (Instr.readNext 0 0 0 256).wellFormed = false ∧ (Instr.readAt 0 0 0 (-129)).wellFormed = false
      ∧ (Instr.readMap 0 0 .current 0 65536 1).wellFormed = false ∧ (Instr.readMap 0 0 .current 0 0 256).wellFormed = false
      ∧ (Instr.scan 0 0 0 256 0 1).wellFormed = false ∧ (Instr.scan 0 0 0 0 0 65536).wellFormed = false
      ∧ (Instr.noticeSetLevels 0 0 [(256, 0)]).wellFormed = false ∧ (Instr.noticeSetThreshold 0 0 256).wellFormed = false
      ∧ (Instr.noticeSummary 0 0 256).wellFormed = false ∧ (Instr.noticeAck 0 0 256 0 0 0 0).wellFormed = false
      ∧ (Instr.noticeRaise 0 0 0 256).wellFormed = false ∧ (Instr.errorsPeek 0 0 256).wellFormed = false
      ∧ (Instr.errorsTake 0 0 65536).wellFormed = false := by decide

/-! ### Small states -/

/-- The next state of a command, where it has one. -/
def after (c : Instr) (s : State) : Option State :=
  match exec c s with
  | .next t => some t
  | .fault _ => none
  | .refused _ => none

/-- Power-on with every port IDLE and of every class. -/
def ready : State := { State.reset with ports := .replicate 3 { Port.powerOn 255#8 with state := .idle } }

def withPort (s : State) (n : ClientId) (p : PortState) : State := s.setPort n { s.port n with state := p }

/-- A chart of 4 NARROW rows. -/
def chart : Geometry := { drum := .narrow, rate := .lpm120, direction := .down, rows := 4 }

/-- The same chart as a schedule entry, start minute 540. -/
def fields : EntryFields where
  station := 12
  product := 410
  startMinute := 540
  tolerance := 5
  frequencies := [42980]
  drum := .narrow
  rate := .lpm120
  direction := .down
  rows := 4
  days := BitVec.allOnes 7
  repeatOf := none
  dayShift := 0

def entry (m : EntryMode) (d : EntryFields) : ScheduleEntry := { definition := some (m, d), writer := none, stamp := 0 }

/-- E3 ACTIVE, the clock SET at minute 540 of day 10. -/
def scheduled : State :=
  { ready with
    schedule := ready.schedule.set 3 (entry .active fields)
    clock := { isSet := true, second := 32400, day := 10, weekday := .monday } }

def line (pass quality : Nat) : LineInfo :=
  { source := 0, pass := pass, quality := quality, rotation := 0
    flags := { skewed := false, unphased := false, faded := false } }

def row (st : RowState) : RowEntry := { RowEntry.fresh with state := st }

/-- A frame of the chart bound through E3, its map one row of each sort. -/
def frameIn (st : FrameState) (pass : Nat) (joined : Vector Bool 3) : Frame :=
  { Frame.freeWith 7 with
    state := st, entry := some 3, root := some 3, day := 10, geometry := some chart, pass := pass, joined := joined
    coverage := 2, missed := 1
    rowMap := [row (.firm (line 1 210)), row (.provisional (line 1 100)), row .missed, row .empty] }

/-- S0 in a state of its stream, bound to F0. -/
def streamIn (st : SourceState) : Source :=
  { Source.powerOn with
    state := st, binding := some { frame := 0, pass := 1, geometry := chart }, firstSeq := some 10, expectedSeq := some 12
    linePeriodTimer := some 750, fadeTimer := if st = .faded then some 30000 else none }

/-- F0 RECEIVING from S0, every notice of client 0 at level 5. -/
def receiving (st : SourceState) : State :=
  { scheduled with
    frames := scheduled.frames.set 0 (frameIn .receiving 1 (onlySource 0))
    sources := scheduled.sources.set 0 (streamIn st)
    clients := scheduled.clients.set 0 { NoticeClient.powerOn with levels := .replicate 16 5 } }

/-- F0 in another state, bound to nothing; clients as in `receiving`. -/
def holding (x : Frame) : State :=
  { scheduled with
    frames := scheduled.frames.set 0 x
    clients := scheduled.clients.set 0 { NoticeClient.powerOn with levels := .replicate 16 5 } }

def pixels : List Byte := List.replicate 448 0#8

def lineAt (sequence quality : Nat) : LineRecord :=
  { sequence := sequence, skew := 0, quality := quality, payload := pixels, reference := 0, unphased := false
    faded := false }

/-- `receiving` with records in S0's ring. -/
def queued (l : List RingRecord) : State :=
  let s := receiving .receiving
  s.setSource 0 { s.source 0 with ring := l }

/-- A write of F0's row at the memory, issued as operation 5. -/
def writeOp (row : Nat) : WriteOp :=
  { kind := .rowWrite pixels, slot := 0, row := row, pass := 1, drum := .narrow, issued := some 5, stale := false }

/-- `receiving` with that write outstanding. -/
def writing (row : Nat) (stale : Bool) : State :=
  let s := receiving .receiving
  let f := s.frame 0
  { s with
    writeQueue := [{ writeOp row with stale := stale }]
    frames := s.frames.set 0 { f with
      rowMap := f.rowMap.modify row (fun e => { e with inFlight := .write (some (line 1 220)) }) } }

/-- The view V0 of F0's pass 1, with its number of cursors. -/
def viewOf (torn : Bool) (cursors : Nat) : View :=
  { frame := 0, generation := 1, torn := torn, held := 0, cursors := cursors }

/-- `queued` with F0 at pass 2, its pass 1 in view V0, and a line for row 1 at the head. -/
def overtaking (torn : Bool) : State :=
  let s := queued [.line (lineAt 11 230)]
  let x := s.frame 0
  { s with
    frames := s.frames.set 0 { x with pass := 2, view := some 0 }
    sources := s.sources.set 0 { s.source 0 with binding := some { frame := 0, pass := 2, geometry := chart } }
    views := s.views.set 0 (some (viewOf torn 0)) }

/-- A copy of F0's row 1 into pool row 0, issued as operation 5. -/
def copying : State :=
  let s := overtaking false
  let x := s.frame 0
  { s with
    writeQueue := [{ writeOp 1 with kind := .rowCopy 0 (line 1 100), pass := 2 }]
    pool := s.pool.set 0 (some { view := 0, frame := 0, row := 1 })
    views := s.views.set 0 (some { viewOf false 0 with held := 1 })
    frames := s.frames.set 0 { x with rowMap := x.rowMap.modify 1 (fun e => { e with inFlight := .copy }) } }

/-- A cursor's fields on an attachment, over rows 0 to 3. -/
def onRows (a : Attachment) (position : Nat) : CursorFields :=
  { attachment := a, position := position, step := 1, base := 0, length := 4, follow := false, retain := false }

def withCursor (s : State) (c : CursorId) (slot : CursorSlot) : State := s.setCursor c { slot := slot, job := none }

/-- F0 COMPLETE, cursor C0 open on it. -/
def reading (position : Nat) : State :=
  withCursor (holding (frameIn .complete 1 (.replicate 3 false))) 0 (.opened (onRows (.current 0) position))

/-- A READ_NEXT of one row on C0 whose read of row 0 is at the memory as operation 5. -/
def awaiting (fate : ReadFate) : State :=
  let s := reading 0
  let item := itemAtOnce 0 (s.rowView (.current 0) 0)
  { s with
    cursors := s.cursors.set 0
      { slot := .opened (onRows (.current 0) 0)
        job := some { kind := .readNext 1, items := [], phase := .awaiting item 0 0 } }
    holders := s.holders.set 0
      (some { slot := 0, row := 0, drum := .narrow, pool := none, issued := some 5, fate := fate, abandoned := false
              viewGone := false })
    ports := s.ports.set 0 { s.port 0 with state := .executing, tag := 9 } }

/-- A group M0 of two charts of 40 rows, E3 above E4, overlapping by 8. -/
def tall (k : EntryId) : MosaicSection :=
  { entry := k, nominal := 40, frame := none
    seam := if k = 4 then some { overlap := 8, adjustment := 0, state := .none, score := none } else none }

def gathered : State :=
  { holding (Frame.freeWith 0) with
    groups := ready.groups.set 0
      { state := .gathering, drum := some .narrow, sections := [tall 3, tall 4], height := 72, stamp := 1 } }

/-- A chart of 40 rows, every one FIRM. -/
def tallFrame (e : EntryId) (k : Nat) : Frame :=
  { frameIn .complete 1 (.replicate 3 false) with
    entry := some e, root := some e, geometry := some { chart with rows := 40 }, mosaic := some (0, k), coverage := 40
    missed := 0, rowMap := List.replicate 40 (row (.firm (line 1 210))) }

def seamIn (st : SeamState) : Seam := { overlap := 8, adjustment := 0, state := st, score := none }

/-- `gathered` with frames in F0 and F1 bound to its sections, E3 a chart of 40 rows too. -/
def mosaicOf (st : GroupState) (upper lower : Frame) (m : Seam) : State :=
  { gathered with
    schedule := ready.schedule.set 3 (entry .active { fields with rows := 40 })
    frames := (gathered.frames.set 0 upper).set 1 lower
    groups := gathered.groups.set 0
      { gathered.group 0 with
        state := st, sections := [{ tall 3 with frame := some 0 }, { tall 4 with frame := some 1, seam := some m }] } }

/-- The group with both frames, its seam queued. -/
def joining : State :=
  { mosaicOf .joining (tallFrame 3 0) (tallFrame 4 1) (seamIn .queued) with seamQueue := [(0, 1)] }

/-- A reservation of client 0 that stands. -/
def reserved (s : State) (t : Target) : State :=
  s.setReservation 0 { target := some t, stamp := s.stampOf t, valid := true }

def pair (d : NoticeDetail) : NoticePair := { origin := .source 0, detail := d, level := 5, count := 1 }

def errorRecord (n : Nat) (kind : ErrorKind) (f : Option FrameId) : ErrorRecord :=
  { number := n, kind := kind, origin := .memory, frame := f, row := none, pass := none, detail := 0, time := 0
    repeats := 0, lost := 0, marking := f.isSome }

/-! ### Ports, clock and schedule -/

theorem witness_StepCarriesOutTheFrontCommand : ready.pending = [] := by decide +kernel

theorem witness_StoreClearEmptiesTheStore :
    (writing 1 false).accepts 0 [.system] ∧ (∀ i, ((writing 1 false).source i).held = none)
      ∧ ((after (.storeClear 0 1) (writing 1 false)).map (fun t => ((t.frame 0).state, (t.frame 0).stamp)))
        = some (.free, 8) := by decide +kernel

/-- F0 COMPLETE at pass 2, its pass 1 in V0, row 0 preserved in pool row 3; some cursors open on the view. -/
def sharing (l : List CursorId) : State :=
  let s := holding { frameIn .complete 2 (.replicate 3 false) with
    view := some 0, rowMap := [{ row (.firm (line 2 210)) with preserved := some 3 }, row .missed, row .missed, row .empty] }
  { l.foldl (fun s c => withCursor s c (.opened { onRows (.previous 0) 0 with retain := true })) s with
    views := s.views.set 0 (some (viewOf false l.length))
    pool := s.pool.set 3 (some { view := 0, frame := 0, row := 0 }) }

/-- A discarded read of the pool row in the holder of C1, and one in that of C2. -/
def poolRead (issued : Option Nat) : ReadRequest :=
  { slot := 0, row := 0, drum := .narrow, pool := some 3, issued := issued, fate := .normal, abandoned := true
    viewGone := false }

/-- The view, its pool row and the frame's stamp after a PORT_RESET of client 0. -/
def viewAfterReset (s : State) : Option (Option View × Option PoolHold × Nat) :=
  (after (.portReset 0 1) s).map (fun t => (t.view 0, t.poolRow 3, (t.frame 0).stamp))

theorem witness_PortResetGivesUpTheClientsHoldings :
    ((reading 0).accepts 0 [] ∧ (reading 0).viewsOk
      ∧ ((after (.portReset 0 1) (reading 0)).map (fun t => (t.cursor 0).slot)) = some .closed)
    ∧ ((sharing [0, 1]).accepts 0 [] ∧ (sharing [0, 1]).viewsOk ∧ viewAfterReset (sharing [0, 1]) = some (none, none, 8)
      ∧ (sharing [0, 2]).viewsOk
      ∧ viewAfterReset (sharing [0, 2]) = some (some (viewOf false 1), some { view := 0, frame := 0, row := 0 }, 7))
    ∧ (let s := ((sharing [0]).setHolder (.cursor 1) (some (poolRead (some 5)))).setHolder (.cursor 2) (some (poolRead none))
      s.accepts 0 [] ∧ s.viewsOk
        ∧ (after (.portReset 0 1) s).map (fun t => (t.holder (.cursor 1), t.holder (.cursor 2)))
          = some (some { poolRead (some 5) with viewGone := true }, some { poolRead none with viewGone := true })
        ∧ (after (.portReset 1 1) s).map (fun t => (t.holder (.cursor 1), t.holder (.cursor 2)))
          = some (some (poolRead (some 5)), none)) := by decide +kernel

theorem witness_StartupMakesPortsReady :
    (State.reset.port 0).state = .starting
      ∧ ((after .portStartupDone State.reset).map (fun t => (t.port 2).state)) = some .idle := by decide +kernel

theorem witness_PortAnswersBusyAndRefusedFrames :
    ((withPort ready 0 .executing).port 0).state = .executing ∧ (ready.port 0).state = .idle
      ∧ ((withPort ready 0 .done).port 0).state = .done ∧ (State.reset.port 0).state = .starting
      ∧ ((after (.requestRefused 0 (some 7) .check) ready).map (fun t => (t.port 0).buffer))
        = some (some { status := .check, tag := 7, body := [] })
      ∧ (after (.requestRefused 0 none .check) (withPort ready 0 .executing)).map
        (fun t => ((t.port 0).busyTag.isSome, t.freeDraws)) = some (true, 1) := by decide +kernel

theorem witness_ResponseReadShowsTheBuffer :
    (State.reset.port 0).state = .starting ∧ ((withPort ready 0 .executing).port 0).state = .executing
      ∧ (ready.port 0).state = .idle ∧ (ready.port 0).buffer = none
      ∧ ((ready.withAnswer 0 3 .ok []).port 0).state = .done
      ∧ ((ready.withAnswer 0 3 .ok []).port 0).buffer = some { status := .ok, tag := 3, body := [] } := by decide +kernel

theorem witness_ClientCommandsMeetThePortFirst :
    clientFrame (.getClock 0 5) = some { port := 0, tag := 5, classes := [.read] } ∧ (State.reset.port 0).state = .starting
      ∧ ((withPort ready 0 .executing).port 0).state = .executing
      ∧ ((ready.setPort 0 { ready.port 0 with mask := 254#8 }).port 0).state = .idle
      ∧ ((ready.setPort 0 { ready.port 0 with mask := 254#8 }).port 0).holds [.read] = false := by decide +kernel

theorem witness_QueriesReportTheRecords :
    ready.accepts 0 [] ∧ ready.accepts 0 [.read] ∧ (ready.frame 0).title.length ≤ 32
      ∧ (after (.mosaicInfo 0 1 0) joining).map (fun t => (t.port 0).buffer.map Response.body)
        = some (some ([2#8, 0#8, 0#8, 72#8, 0#8, 1#8, 2#8] ++ [3#8, 0#8, 40#8, 0#8, 4#8, 0#8, 0#8, 255#8, 128#8, 255#8, 255#8]
          ++ [4#8, 0#8, 40#8, 1#8, 4#8, 0#8, 32#8, 8#8, 0#8, 2#8, 255#8]))
      ∧ joining.groupBlock 0 = joining.groupBytes 0
      ∧ (after (.scheduleRead 0 1 3) scheduled).map (fun t => (t.port 0).buffer.map Response.body)
        = some (some ([1#8, 255#8, 0#8, 0#8] ++ [12#8, 1#8, 154#8, 2#8, 28#8, 5#8, 1#8] ++ [0#8, 167#8, 228#8]
          ++ List.replicate 9 0#8 ++ [0#8, 1#8, 0#8, 0#8, 4#8, 127#8, 255#8, 0#8])) := by decide +kernel

/-- No frame of the state is EXPECTED, so none lapses. -/
theorem no_lapse (s : State) (h : ∀ f, (s.frame f).state ≠ .expected) : ∀ f, ¬ s.lapses f := fun f l => h f l.1

theorem witness_SetClockLoadsAndGetClockReports :
    ready.accepts 0 [.system] ∧ ready.atRest ∧ (86399 : Nat) ≤ 86399 ∧ weekdayOfCode 6 = some .sunday
      ∧ (∀ f, ¬ State.lapses { ready with clock := { isSet := true, second := 86399, day := 0, weekday := .sunday } } f)
      ∧ (86399 : Nat) < 86400 ∧ (6 : Nat) < 7 ∧ ready.accepts 0 [.read] ∧ ready.clock.isSet = false
      ∧ scheduled.accepts 0 [.read] ∧ scheduled.clock.isSet = true :=
  ⟨by decide +kernel, by decide +kernel, by decide, by decide, no_lapse _ (by decide +kernel), by decide +kernel⟩

/-- `scheduled` at another second of the day. -/
def atSecond (n : Nat) : State := { scheduled with clock := { scheduled.clock with second := n } }

theorem witness_ClockSecondAdvancesTheClock :
    ready.clock.isSet = false
      ∧ ((atSecond 86398).clock.isSet = true ∧ (86398 + 1) % 60 ≠ 0 ∧ (86398 : Nat) < 86399)
      ∧ ((atSecond 59).clock.isSet = true ∧ (59 + 1) % 60 = 0 ∧ (atSecond 59).atRest ∧ ∀ f, ¬ (atSecond 60).lapses f)
      ∧ ((atSecond 86399).clock.isSet = true ∧ (atSecond 86399).atRest
        ∧ (∀ f, ¬ State.lapses { scheduled with
            clock := { isSet := true, second := 0, day := 11, weekday := .tuesday } } f)
        ∧ (after .clockSecond (atSecond 86399)).map State.clock
          = some { isSet := true, second := 0, day := 11, weekday := .tuesday }) :=
  ⟨by decide +kernel, by decide +kernel,
    ⟨by decide +kernel, by decide, by decide +kernel, no_lapse _ (by decide +kernel)⟩,
    ⟨by decide +kernel, by decide +kernel, no_lapse _ (by decide +kernel), by decide +kernel⟩⟩

/-- F0 EXPECTED through E3 for the day before, the next second entering a minute. -/
def lapsing : State :=
  { holding { frameIn .expected 0 (.replicate 3 false) with day := 9, coverage := 0, missed := 0 } with
    clock := { scheduled.clock with second := 32459 } }

theorem witness_MinuteCheckLapsesPassedFrames :
    lapsing.clock.isSet = true ∧ (lapsing.clock.second + 1) % 60 = 0 ∧ lapsing.clock.second < 86399 ∧ lapsing.atRest
      ∧ State.lapses { lapsing with clock := { lapsing.clock with second := 32460 } } 0
      ∧ (lapsing.client 0).levels[(3 : Fin 16)] ≠ 0 ∧ (lapsing.frame 1).state ≠ .expected
      ∧ (after .clockSecond lapsing).map (fun t => ((t.frame 0).state, (t.frame 0).stamp)) = some (.free, 8) :=
  ⟨by decide +kernel, by decide +kernel, by decide +kernel, by decide +kernel,
    ⟨by decide +kernel, by decide +kernel, 3, by decide +kernel,
      .inr ⟨.active, fields, 1436, by decide +kernel, by decide, by decide, by decide +kernel⟩⟩,
    by decide +kernel⟩

/-- F0 as in `lapsing`; F1 the same, pinned by client 2; F2 the same, with a RETAIN cursor; F3 of a later day. -/
def prepared : State :=
  let x := lapsing.frame 0
  ((((lapsing.setFrame 1 (x.setPin 2 true)).setFrame 2 (x.setRetain 3 true)).setFrame 3 { x with day := 20 }).setCursor 3
    { slot := .opened { onRows (.current 2) 0 with retain := true }, job := none })

theorem witness_MinuteCheckLapsesPassedFrames_midnight_and_set_clock :
    let four (s : State) := ((s.frame 0).state, (s.frame 1).state, (s.frame 2).state, (s.frame 3).state)
    let s := { prepared with clock := { prepared.clock with second := 86399 } }
    s.atRest ∧ s.clock.isSet = true ∧ (s.frame 1).pins.explicit[(2 : ClientId)] = true
      ∧ (s.frame 2).pins.retain[(3 : CursorId)] = true
      ∧ (s.cursor 3).slot = .opened { onRows (.current 2) 0 with retain := true }
      ∧ State.lapses { s with clock := { isSet := true, second := 0, day := 11, weekday := .tuesday } } 0
      ∧ (after .clockSecond s).map four = some (.free, .expected, .expected, .expected)
      ∧ prepared.accepts 0 [.system] ∧ prepared.jobsOk ∧ weekdayOfCode 2 = some .wednesday
      ∧ (after (.setClock 0 1 0 11 2) prepared).map (fun t => (four t, (t.port 0).buffer))
        = some ((.free, .expected, .expected, .expected), some { status := .ok, tag := 1, body := [] })
      ∧ (after (.setClock 0 1 0 9 2) prepared).map four = some (.expected, .expected, .expected, .expected) :=
  ⟨by decide +kernel, by decide +kernel, by decide +kernel, by decide +kernel, by decide +kernel,
    ⟨by decide +kernel, by decide +kernel, 3, by decide +kernel,
      .inr ⟨.active, fields, 2335, by decide +kernel, by decide, by decide, by decide +kernel⟩⟩,
    by decide +kernel⟩

theorem witness_PrepareSetsUpAnExpectedFrame :
    scheduled.accepts 0 [.frameEdit] ∧ (scheduled.entryAt 3).definition = some (.active, fields)
      ∧ (∀ f, ¬ ((scheduled.frame f).state ≠ .free ∧ (scheduled.frame f).root = some 3
        ∧ (scheduled.frame f).day = 65535)) ∧ (scheduled.frame 0).state = .free
      ∧ ((after (.prepare 0 1 3 1 65535) scheduled).map (fun t => ((t.frame 0).state, (t.frame 0).day))
        = some (.expected, 65535))
      ∧ scheduled.clock.isSet = true ∧ (10 + 65536 - 0) % 65536 = scheduled.clock.day
      ∧ ((receiving .receiving).frame 0).root = some 3 ∧ ((receiving .receiving).frame 0).day = 10
      ∧ ((after (.prepare 0 1 3 0 0) (receiving .receiving)).map (fun t => (t.port 0).buffer)
        = some (some { status := .conflict, tag := 1, body := [0#8] }))
      ∧ (∀ f, (State.frame { scheduled with frames := .replicate 24 (frameIn .receiving 1 (onlySource 0)) } f).state ≠ .free)
      ∧ (scheduled.entryAt 4).definition = none
      ∧ (State.entryAt { ready with schedule := scheduled.schedule } 3).definition.isSome = true
      ∧ ready.clock.isSet = false := by decide +kernel

/-- E3, and E9 five minutes later at the same frequency. -/
def crowded : State := { scheduled with schedule := scheduled.schedule.set 9 (entry .active { fields with startMinute := 545 }) }

def startRecord : StartRecord := { frequency := 42980, drum := .narrow, rate := .lpm120 }

/-- R6's first example: at minute 542 E3 is chosen, at distance 2, before E9, at distance 3. -/
theorem witness_ChosenEntryIsTheNearestCandidate :
    State.chosenEntry { crowded with clock := { crowded.clock with second := 542 * 60 } } startRecord = some (3, fields)
      ∧ State.chosenEntry { crowded with clock := { crowded.clock with second := 543 * 60 } } startRecord
        = some (9, { fields with startMinute := 545 })
      ∧ State.chosenEntry { crowded with clock := { crowded.clock with second := 0 } } startRecord = none := by
  decide +kernel

/-- A table in which no frame is FREE or evictable. -/
def full (s : State) : State :=
  { s with frames := .replicate 24 { frameIn .receiving 1 (onlySource 1) with entry := none, root := none } }

def adHoc (s : State) : State := s.modifySource 0 (fun x => { x with config := { x.config with adHoc := true } })

/-- A frame RECEIVING through E4 with 5 rows: it holds E3's key and cannot take its START. -/
def blocking : Frame :=
  { frameIn .receiving 1 (onlySource 1) with entry := some 4, geometry := some { chart with rows := 5 } }

theorem witness_StartWithoutABindingIsDiscarded :
    ((ready.source 0).state = .idle ∧ (ready.source 0).binding = none ∧ ready.atRest ∧ ready.clock.isSet = false
      ∧ (ready.source 0).config.adHoc = false
      ∧ (after (.start 0 42980 .narrow .lpm120) ready).map (fun t => (t.source 0).state) = some .discarding)
    ∧ ((adHoc (full ready)).atRest ∧ ((adHoc (full ready)).source 0).state = .idle
      ∧ ((adHoc (full ready)).source 0).config.adHoc = true ∧ (adHoc (full ready)).clock.isSet = false
      ∧ (∀ f, ((adHoc (full ready)).frame f).state ≠ .free ∧ ((adHoc (full ready)).frame f).isEvictable = false))
    ∧ ((full scheduled).atRest ∧ (full scheduled).clock.isSet = true
      ∧ (full scheduled).chosenEntry startRecord = some (3, fields)
      ∧ (∀ f, ((full scheduled).frame f).state ≠ .free ∧ ((full scheduled).frame f).isEvictable = false)
      ∧ ∀ f, (full scheduled).holdsKey f 3 fields → (full scheduled).cannotTake f 3 fields)
    ∧ (let s := (full scheduled).setFrame 5 blocking
      s.atRest ∧ s.holdsKey 5 3 fields ∧ (∀ f, s.holdsKey f 3 fields → s.cannotTake f 3 fields)
        ∧ (∀ f, (s.frame f).state ≠ .free ∧ (s.frame f).isEvictable = false)
        ∧ (after (.start 0 42980 .narrow .lpm120) s).map (fun t => ((t.source 0).state, (t.frame 5).root, t.errors.length))
          = some (.discarding, some 3, 1)) := by
  decide +kernel

/-- Every slot settled at one time, the key of E3 held nowhere. -/
def evictable : State :=
  { scheduled with
    frames := .replicate 24 { frameIn .complete 1 (.replicate 3 false) with root := none, settledAt := some (1, 0) } }

/-- The frames that hold E3's key in `s` are those of `old`, and none of them can take its START. -/
abbrev handsOver (s : State) (d : EntryFields) (old : Option FrameId) : Prop :=
  (s.source 0).state = .idle ∧ (s.source 0).binding = none ∧ s.atRest ∧ s.clock.isSet = true
    ∧ s.chosenEntry startRecord = some (3, d) ∧ (∀ g, s.holdsKey g 3 d ↔ old = some g)
    ∧ ∀ g, old = some g → s.cannotTake g 3 d

/-- No section of `s` matches E3 and fits its chart. -/
abbrev unclaimed (s : State) (d : EntryFields) : Prop :=
  ∀ h, ∀ j < 6, ∀ x ∈ (s.group h).sections[j]?, s.sectionMatches 3 x →
    ¬ s.sectionFits h j { drum := d.drum, rate := d.rate, direction := d.direction, rows := d.rows }

/-- What a START of S0 makes of F0 and of the old frame F3. -/
def handed (t : State) : (FrameState × Option EntryId) × (FrameState × Option EntryId) :=
  (((t.frame 0).state, (t.frame 0).root), ((t.frame 3).state, (t.frame 3).root))

theorem witness_StartTakesAFreshFrame :
    (handsOver scheduled fields none ∧ unclaimed scheduled fields ∧ (scheduled.frame 0).state = .free
      ∧ (after (.start 0 42980 .narrow .lpm120) scheduled).map (fun t => ((t.source 0).state, (t.frame 0).pass))
        = some (.phasing, 1))
    ∧ (let s := scheduled.setFrame 3 (frameIn .complete 15 (.replicate 3 false))
      handsOver s fields (some 3)
        ∧ (after (.start 0 42980 .narrow .lpm120) s).map handed = some ((.receiving, some 3), (.complete, none)))
    ∧ (handsOver (scheduled.setFrame 3 (frameIn .faulted 1 (.replicate 3 false))) fields (some 3)
      ∧ handsOver (scheduled.setFrame 3 blocking) fields (some 3))
    ∧ ((adHoc ready).clock.isSet = false ∧ ((adHoc ready).source 0).config.adHoc = true ∧ (adHoc ready).atRest)
    ∧ (handsOver evictable fields none ∧ unclaimed evictable fields
      ∧ (∀ g, (evictable.frame g).state ≠ .free) ∧ (evictable.frame 0).isEvictable = true
      ∧ (∀ g, (evictable.frame g).isEvictable = true →
        (evictable.frame 0).settledTime < (evictable.frame g).settledTime
          ∨ (evictable.frame 0).settledTime = (evictable.frame g).settledTime ∧ 0 ≤ g)
      ∧ (after (.start 0 42980 .narrow .lpm120) evictable).map (fun t => ((t.frame 0).state, (t.frame 0).stamp))
        = some (.receiving, 9))
    ∧ (let s := evictable.setFrame 3 (frameIn .faulted 1 (.replicate 3 false))
      handsOver s fields (some 3)
        ∧ (after (.start 0 42980 .narrow .lpm120) s).map handed = some ((.receiving, some 3), (.faulted, none))) := by
  decide +kernel

/-- The group JOINED, its upper chart of the day before. -/
def outdated : State := mosaicOf .joined { tallFrame 3 0 with day := 9 } (tallFrame 4 1) (seamIn .found)

theorem witness_StartTakesAFreshFrame_in_a_section :
    handsOver outdated { fields with rows := 40 } none ∧ (outdated.frame 2).state = .free
      ∧ (∀ g < 2, (outdated.frame g).state ≠ .free)
      ∧ (outdated.group 0).sections[0]? = some { tall 3 with frame := some 0 }
      ∧ outdated.sectionMatches 3 { tall 3 with frame := some 0 } ∧ outdated.sectionFits 0 0 { chart with rows := 40 }
      ∧ (∀ h, ∀ j < 6, ∀ y ∈ (outdated.group h).sections[j]?, y.entry = 3 → h = 0 ∧ j = 0)
      ∧ (after (.start 0 42980 .narrow .lpm120) outdated).map
        (fun t => (t.sectionFrame 0 0, (t.group 0).state, (t.seam 0 1).map Seam.state, (t.frame 0).mosaic))
        = some (some 2, .gathering, some .none, none) := by decide +kernel

/-- `outdated` with every slot taken and none evictable but F0, the section's own frame; and the section's frame kept, F2 of
another group in its stead. -/
def outdatedFull : State :=
  let x := { tallFrame 3 0 with entry := none, root := none, mosaic := none, settledAt := some (1, 0) }
  let pinned (y : Frame) : Frame := if y.state = .free then x.setPin 0 true else y
  ({ outdated with frames := outdated.frames.map pinned } : State).modifyFrame 1 (fun y => y.setPin 0 true)
def outdatedApart : State :=
  ((outdatedFull.modifyFrame 0 (fun y => y.setPin 0 true)).modifyFrame 2
    (fun y => { y with pins := .empty, mosaic := some (1, 0) })).modifyGroup 1
    (fun _ => { outdated.group 0 with sections := [{ tall 9 with frame := some 2, seam := none }] })

theorem witness_StartTakesAFreshFrame_evicting_into_a_section :
    handsOver outdatedFull { fields with rows := 40 } none ∧ (∀ g, (outdatedFull.frame g).state ≠ .free)
      ∧ (∀ g, (outdatedFull.frame g).isEvictable = true ↔ g = 0) ∧ (outdatedFull.frame 0).mosaic = some (0, 0)
      ∧ (after (.start 0 42980 .narrow .lpm120) outdatedFull).map
        (fun t => (t.sectionFrame 0 0, (t.group 0).state, (t.frame 0).mosaic, (t.client 0).pendingSet.map NoticePair.detail))
        = some (some 0, .gathering, some (0, 0), [.frameBound 0 .fresh, .frameEvicted 0, .mosaicStale 0 .free])
      ∧ handsOver outdatedApart { fields with rows := 40 } none ∧ (∀ g, (outdatedApart.frame g).isEvictable = true ↔ g = 2)
      ∧ (after (.start 0 42980 .narrow .lpm120) outdatedApart).map
        (fun t => (t.sectionFrame 0 0, t.sectionFrame 1 0, (t.frame 2).mosaic, (t.frame 0).mosaic))
        = some (some 2, none, some (0, 0), none) := by decide +kernel

/-- The hypotheses that a START of S1 for the frame F0, through E3 of `n` rows, meets in `s`. -/
abbrev startsOn (s : State) (n : Nat) : Prop :=
  (s.source 1).state = .idle ∧ (s.source 1).binding = none ∧ s.atRest ∧ s.clock.isSet = true
    ∧ s.chosenEntry startRecord = some (3, { fields with rows := n })
    ∧ (∀ k, s.holdsKey k 3 { fields with rows := n } ↔ k = 0) ∧ (s.frame 0).geometry = some { chart with rows := n }

/-- A section that matches E3 and fits its chart has F0 already. -/
abbrev boundAlready (s : State) (n : Nat) : Prop :=
  ∀ h, ∀ j < 6, ∀ x ∈ (s.group h).sections[j]?, s.sectionMatches 3 x → s.sectionFits h j { chart with rows := n } →
    x.frame = some 0

/-- The group with its upper chart RECEIVING from S0; and JOINED. -/
def midway : State :=
  mosaicOf .gathering { tallFrame 3 0 with state := .receiving, joined := onlySource 0 } (tallFrame 4 1) (seamIn .none)
def joined : State := mosaicOf .joined (tallFrame 3 0) (tallFrame 4 1) (seamIn .found)

theorem witness_StartJoinsOrRejoinsThePass :
    (startsOn (receiving .receiving) 4 ∧ ((receiving .receiving).frame 0).state = .receiving
      ∧ ((receiving .receiving).frame 0).entry = some 3 ∧ boundAlready (receiving .receiving) 4
      ∧ (after (.start 1 42980 .narrow .lpm120) (receiving .receiving)).map (fun t => (t.frame 0).joined.toList)
        = some [true, true, false])
    ∧ (startsOn (holding (frameIn .settling 1 (.replicate 3 false))) 4
      ∧ (after (.start 1 42980 .narrow .lpm120) (holding (frameIn .settling 1 (.replicate 3 false)))).map
        (fun t => ((t.frame 0).state, (t.frame 0).pass)) = some (.receiving, 1))
    ∧ (startsOn midway 40 ∧ (midway.frame 0).state = .receiving ∧ boundAlready midway 40
      ∧ (after (.start 1 42980 .narrow .lpm120) midway).map (fun t => t.groups) = some midway.groups) := by decide +kernel

/-- F0 RECEIVING or SETTLING through E3 in no section, F2 in E3's; C4 a RETAIN cursor on the group, which pins F2. -/
def beside (st : FrameState) : State :=
  let sources := if st = .receiving then onlySource 0 else .replicate 3 false
  let x := { tallFrame 3 0 with state := st, joined := sources, mosaic := none }
  let s := (mosaicOf .joined x (tallFrame 4 1) (seamIn .found)).modifyGroup 0
    (fun y => { y with sections := y.sections.modify 0 (fun z => { z with frame := some 2 }) })
  (s.setFrame 2 ({ tallFrame 3 0 with day := 9 }.setRetain 4 true)).setCursor 4
    { slot := .opened { onRows (.group 0) 0 with retain := true }, job := none }

theorem witness_StartJoinsOrRejoinsThePass_into_a_section :
    let moved (s : State) := (after (.start 1 42980 .narrow .lpm120) s).map (fun t =>
      (t.sectionFrame 0 0, ((t.frame 0).mosaic, (t.frame 0).pins.retain[4]), ((t.frame 2).mosaic, (t.frame 2).pins.retain[4]),
        (t.group 0).state))
    startsOn (beside .receiving) 40 ∧ startsOn (beside .settling) 40 ∧ ((beside .receiving).frame 0).entry = some 3
      ∧ ((beside .receiving).frame 0).mosaic ≠ some (0, 0)
      ∧ ((beside .receiving).group 0).sections[0]? = some { tall 3 with frame := some 2 }
      ∧ (beside .receiving).sectionFits 0 0 { chart with rows := 40 }
      ∧ moved (beside .receiving) = some (some 0, (some (0, 0), true), (none, false), .gathering)
      ∧ moved (beside .settling) = some (some 0, (some (0, 0), true), (none, false), .gathering) := by decide +kernel

theorem witness_StartOpensANewPassOrTakesTheExpectedFrame :
    (startsOn (holding (frameIn .complete 14 (.replicate 3 false))) 4
      ∧ (after (.start 1 42980 .narrow .lpm120) (holding (frameIn .complete 14 (.replicate 3 false)))).map
        (fun t => ((t.frame 0).pass, (t.frame 0).view, t.view 0))
        = some (15, some 0, some { viewOf false 0 with generation := 14 }))
    ∧ (startsOn (holding { frameIn .settling 1 (.replicate 3 false) with entry := some 4 }) 4
      ∧ (after (.start 1 42980 .narrow .lpm120) (holding { frameIn .settling 1 (.replicate 3 false) with entry := some 4 })).map
        (fun t => (t.frame 0).pass) = some 2)
    ∧ (startsOn (holding (frameIn .expected 0 (.replicate 3 false))) 4
      ∧ (after (.start 1 42980 .narrow .lpm120) (holding (frameIn .expected 0 (.replicate 3 false)))).map
        (fun t => ((t.frame 0).pass, (t.frame 0).rowMap)) = some (1, List.replicate 4 (row .empty)))
    ∧ (startsOn joined 40 ∧ boundAlready joined 40 ∧ (joined.frame 0).mosaic = some (0, 0)
      ∧ joined.sectionFrame 0 0 = some 0 ∧ (joined.group 0).state = .joined ∧ joined.seam 0 1 = some (seamIn .found)
      ∧ (joined.client 0).levels[(11 : Fin 16)] ≠ 0
      ∧ (after (.start 1 42980 .narrow .lpm120) joined).map
        (fun t => ((t.group 0).state, (t.group 0).stamp, t.seam 0 1, (t.client 0).pendingSet.map NoticePair.detail))
        = some (.gathering, 2, some (seamIn .none), [.frameBound 1 .newPass, .mosaicStale 0 .newPass])) := by decide +kernel

/-- F0 EXPECTED with 6 rows, taken with 4: C0 holds rows 2 to 5 downwards and C1 rows 0 to 3. -/
theorem witness_StartTakesTheExpectedFrame_refitting_cursors :
    let x := { frameIn .expected 0 (.replicate 3 false) with geometry := some { chart with rows := 6 } }
    let low := { onRows (.current 0) 5 with base := 2, step := -1 }
    let s := withCursor (withCursor (holding x) 0 (.opened low)) 1 (.opened (onRows (.current 0) 3))
    (s.frame 0).state = .expected ∧ (s.cursor 0).slot = .opened low ∧ low.base + low.length = 6
      ∧ (after (.start 1 42980 .narrow .lpm120) s).map (fun t => ((t.cursor 0).slot, (t.cursor 1).slot))
        = some (.opened { onRows (.current 0) 3 with step := -1 }, .opened (onRows (.current 0) 3)) := by decide +kernel

/-- A START opens pass 3 of F0, whose pass 1 is in V0 with C0 and C1 reading it. -/
theorem witness_StartOpensANewPass_over_a_view :
    (startsOn (sharing [0, 1]) 4 ∧ ((sharing [0, 1]).frame 0).state = .complete ∧ ((sharing [0, 1]).frame 0).pass < 15
      ∧ ((sharing [0, 1]).frame 0).view = some 0 ∧ (∀ w : ViewId, ¬ w < 0)
      ∧ ((sharing [0, 1]).cursor 1).slot = .opened { onRows (.previous 0) 0 with retain := true }
      ∧ ((sharing [0, 1]).client 0).levels[(12 : Fin 16)] ≠ 0
      ∧ (after (.start 1 42980 .narrow .lpm120) (sharing [0, 1])).map
        (fun t => (t.view 0, t.poolRow 3, (t.cursor 1).slot, (t.client 0).pendingSet.map NoticePair.detail))
        = some (some { viewOf false 0 with generation := 2 }, none,
            .lost { onRows (.previous 0) 0 with retain := true }, [.frameBound 1 .newPass, .cursorLostFrame 1 0 .viewReleased]))
    ∧ (let s := { sharing [] with
          frames := (sharing []).frames.set 0 (frameIn .complete 2 (.replicate 3 false))
          views := .replicate 4 (some { viewOf false 0 with frame := 5 }) }
      startsOn s 4 ∧ (s.frame 0).view = none ∧ (∀ w, s.view w ≠ none)
        ∧ (after (.start 1 42980 .narrow .lpm120) s).map (fun t => (t.frame 0).view) = some none) := by decide +kernel

/-- A START overtakes pass 1 of F0, 3 of its 4 rows covered, PARTIAL at the default per-mille; and with its marks clear. -/
theorem witness_StartOpensANewPass_overtaking :
    let x : Frame := { frameIn .settling 1 (.replicate 3 false) with entry := some 4, coverage := 3, enable := true }
    let settledBy (s : State) := (after (.start 1 42980 .narrow .lpm120) s).map (fun t =>
      ((t.frame 0).pass, (t.frame 0).settledAt, (t.client 0).pendingSet.map NoticePair.detail))
    let s := holding { x with pendingMark := true }
    startsOn s 4 ∧ (s.frame 0).state = .settling ∧ (s.client 0).levels[(1 : Fin 16)] ≠ 0
      ∧ settledBy s = some (2, some (s.clock.day, s.clock.second), [.frameBound 1 .newPass, .passSettled 1 false])
      ∧ settledBy (holding x) = some (2, x.settledAt, [.frameBound 1 .newPass]) := by decide +kernel

/-! ### Line links -/

/-- S0 in DISCARDING, and IDLE while still bound. -/
def discarding : State := ready.modifySource 0 (fun x => { x with state := .discarding })
def idleBound : State := (receiving .receiving).modifySource 0 (fun x => { x with state := .idle, ring := [.marker .lost] })

theorem witness_StartDuringAStreamIsHeld :
    ((receiving .phasing).atRest ∧ ((receiving .phasing).source 0).state = .phasing
      ∧ (receiving .faded).atRest ∧ ((receiving .faded).source 0).state = .faded
      ∧ (after (.start 0 42980 .narrow .lpm120) (receiving .receiving)).map (fun t => (t.source 0).ring)
        = some [.marker .lost])
    ∧ ((receiving .draining).atRest ∧ ((receiving .draining).source 0).state = .draining
      ∧ idleBound.atRest ∧ (idleBound.source 0).state = .idle ∧ (idleBound.source 0).binding.isSome = true)
    ∧ ((discarding.source 0).state = .discarding ∧ (discarding.source 0).binding = none) := by decide +kernel

/-- S0 phasing with 19 positions, at the default phasing count of 20. -/
def phasing (n : Nat) : State := (receiving .phasing).modifySource 0 (fun x => { x with positions := List.range n })

theorem witness_PhasingTakesTheMedian :
    ((phasing 19).atRest ∧ ((phasing 19).source 0).state = .phasing
      ∧ ((phasing 19).source 0).binding = some { frame := 0, pass := 1, geometry := chart }
      ∧ drumWidth .narrow ≤ 896 ∧ 895 < drumWidth .narrow ∧ ((phasing 19).source 0).config.phasingCount ≤ 19 + 1
      ∧ ((phasing 18).source 0).positions.length + 1 < ((phasing 18).source 0).config.phasingCount
      ∧ (after (.phase 0 0 895) (phasing 19)).map (fun t => ((t.source 0).state, (t.source 0).reference))
        = some (.receiving, 9))
    ∧ (ready.atRest ∧ (ready.source 0).state ≠ .phasing ∧ (ready.source 0).state ≠ .discarding
      ∧ (ready.source 0).state ≠ .linkDown)
    ∧ (discarding.atRest ∧ (discarding.source 0).state = .discarding
      ∧ (after (.phase 0 0 895) discarding).map (fun t => ((t.source 0).counters.phases, (t.source 0).counters.received))
        = some (1, 0)) := by decide +kernel

/-- S0's ring with `n` lines. -/
def lines (n : Nat) : State := queued (List.replicate n (.line (lineAt 10 200)))

theorem witness_ImageIsPushedWithItsStamp :
    ((lines 14).atRest ∧ ((lines 14).source 0).state = .receiving ∧ (receiving .faded).atRest
      ∧ ((lines 14).source 0).binding = some { frame := 0, pass := 1, geometry := chart }
      ∧ pixels.length = drumBytes .narrow ∧ 895 < drumWidth .narrow ∧ ((lines 14).source 0).ring.length ≤ 14
      ∧ 15 ≤ ((lines 15).source 0).ring.length
      ∧ (after (.image 0 12 0 200 pixels) (lines 14)).map (fun t => (t.source 0).ring.length) = some 15
      ∧ (after (.image 0 12 0 200 pixels) (lines 15)).map (fun t => (t.source 0).counters.overrun) = some 1)
    ∧ ((phasing 3).source 0).state = .phasing
    ∧ (discarding.atRest ∧ (discarding.source 0).state = .discarding ∧ (ready.source 0).state = .idle
      ∧ ((receiving .draining).source 0).state = .draining) := by decide +kernel

/-- S0 with a number of rejections in a row. -/
def rejecting (n : Nat) : State := (receiving .receiving).modifySource 0 (fun x => { x with rejections := n })

theorem witness_ImageOutsideTheStreamIsRejected :
    (rejecting 6).atRest ∧ ((rejecting 6).source 0).state = .receiving
      ∧ ((rejecting 6).source 0).binding = some { frame := 0, pass := 1, geometry := chart }
      ∧ (List.replicate 672 (0#8 : Byte)).length ≠ drumBytes .narrow ∧ drumWidth .narrow ≤ 896
      ∧ ((rejecting 6).source 0).rejections < 7 ∧ ((rejecting 7).source 0).rejections = 7
      ∧ (after (.image 0 12 896 200 pixels) (rejecting 7)).map (fun t => (t.source 0).ring)
        = some [.marker .overrun] := by decide +kernel

theorem witness_StopDropResumeAndIdleAreTaken :
    (receiving .phasing).atRest ∧ ((receiving .phasing).source 0).state = .phasing
      ∧ (receiving .faded).atRest ∧ ((receiving .faded).source 0).state = .faded
      ∧ (receiving .receiving).atRest ∧ ((receiving .receiving).source 0).state = .receiving
      ∧ (receiving .draining).atRest ∧ ((receiving .draining).source 0).state = .draining
      ∧ discarding.atRest ∧ (discarding.source 0).state = .discarding ∧ (discarding.source 0).held = none
      ∧ ready.atRest ∧ (ready.source 0).state = .idle
      ∧ (after (.drop 0) (receiving .receiving)).map (fun t => ((t.source 0).state, (t.client 0).pendingSet.length))
        = some (.faded, 1)
      ∧ (after (.resume 0) (receiving .faded)).map (fun t => (t.source 0).state) = some .receiving := by decide +kernel

/-- S0 in LINK_DOWN with a recovery count. -/
def linkDown (n : Nat) : State :=
  ready.modifySource 0 (fun x => { x with state := .linkDown, silenceTimer := none, recovery := n })

theorem witness_LinkIsLostAndRecovers :
    ((receiving .receiving).source 0).state ≠ .linkDown ∧ ((receiving .receiving).source 0).checkFailures < 3
      ∧ (((receiving .receiving).modifySource 0 (fun x => { x with checkFailures := 3 })).source 0).checkFailures = 3
      ∧ ((linkDown 0).source 0).state = .linkDown ∧ ((receiving .receiving).source 0).silenceTimer.isSome = true
      ∧ recordSource (.idle 0) = some 0 ∧ recordSource (.image 0 0 0 0 pixels) = some 0 ∧ (linkDown 1).atRest
      ∧ ((linkDown 1).source 0).held = none ∧ ((linkDown 1).source 0).recovery < 2
      ∧ (linkDown 2).atRest ∧ ((linkDown 2).source 0).recovery = 2
      ∧ (after (.stop 0) (linkDown 2)).map (fun t => (t.source 0).state) = some .idle := by decide +kernel

theorem witness_SilentLinesAreMissedAndFadesEnd :
    ((receiving .receiving).source 0).linePeriodTimer = some 750
      ∧ ((receiving .receiving).source 0).binding = some { frame := 0, pass := 1, geometry := chart }
      ∧ ((receiving .receiving).source 0).firstSeq = some 10 ∧ ((receiving .receiving).source 0).expectedSeq = some 12
      ∧ ((receiving .receiving).source 0).state = .receiving ∧ rowOfSequence chart 10 13 = some 3
      ∧ (receiving .receiving).rowEntry 0 3 = some (row .empty) ∧ (receiving .receiving).rowEntry 0 2 = some (row .missed)
      ∧ rowOfSequence chart 10 14 = none ∧ ((receiving .faded).source 0).state = .faded
      ∧ ((receiving .faded).source 0).fadeTimer.isSome = true
      ∧ (after (.linePeriodExpiry 0) ((receiving .receiving).modifySource 0 (fun x => { x with expectedSeq := some 13 }))).map
        (fun t => (t.rowEntry 0 3, (t.frame 0).missed)) = some (some (row .missed), 2) := by decide +kernel

/-! ### Configurations -/

theorem witness_SourceConfigStoresTheValuesGiven :
    ready.accepts 0 [.system]
      ∧ sourceArgsAllowed { noSourceArgs with phasingCount := some 4, missedLimit := some 255, adHoc := some 1 }
      ∧ ¬ sourceArgsAllowed { noSourceArgs with phasingCount := some 3 }
      ∧ ¬ sourceArgsAllowed { noSourceArgs with adHoc := some 2 } := by decide +kernel

theorem witness_StoreConfigStoresTheValuesGiven :
    ready.accepts 0 [.system] ∧ storeArgsAllowed { noStoreArgs with settleTime := some 600, seamAcceptLimit := some 15 }
      ∧ ¬ storeArgsAllowed { noStoreArgs with completePerMille := some 1001 }
      ∧ ((ready.setPort 0 { ready.port 0 with mask := 127#8 }).port 0).state = .idle
      ∧ ((ready.setPort 0 { ready.port 0 with mask := 127#8 }).port 0).holds [.system] = false := by decide +kernel

/-! ### Placement engine, frames and memory controller -/

/-- R55's example: a reference of 814 on a STANDARD stream, and lines of skew 815, 880 and 20. -/
def standardLine (skew : Nat) : LineRecord := { lineAt 0 200 with skew := skew, reference := 814 }

theorem witness_EffectiveQualityLosesThePenalties :
    (815 < drumWidth .standard ∧ 814 < drumWidth .standard ∧ rawRotation .standard (standardLine 20) = 550)
      ∧ ((lineInfoOf 0 1 48 .standard (standardLine 815)).rotation, (lineInfoOf 0 1 48 .standard (standardLine 880)).rotation,
          (lineInfoOf 0 1 48 .standard (standardLine 20)).rotation) = (1, 48, 48)
      ∧ (lineInfoOf 0 1 48 .standard (standardLine 880)).quality = 136
      ∧ turnPayload [0x12#8, 0x34#8] 1 = [0x23#8, 0x41#8] ∧ turnPayload [0x12#8, 0x34#8] (-1) = [0x41#8, 0x23#8]
      ∧ pixelAt [0x12#8, 0x34#8] 2 = 3 := by decide +kernel

/-- The head of S0 is due: it is the pointer's own source. -/
theorem head_due (s : State) (h : s.pointer = 0 ∧ (s.source 0).headReady = true) : s.headDue 0 :=
  ⟨0, by decide, by simp [h.1], h.2, fun _ m hm => absurd hm (Nat.not_lt_zero m)⟩

theorem witness_HeadTakeDecidesTheLine :
    (queued [.line (lineAt 10 230)]).headDue 0 ∧ (queued [.line (lineAt 11 115)]).headDue 0
      ∧ (queued [.line (lineAt 13 230)]).headDue 0 ∧ (queued [.line (lineAt 14 230)]).headDue 0
      ∧ (queued [.line (lineAt 14 230)]).atRest
      ∧ ((queued [.line (lineAt 14 230)]).source 0).firstSeq = some 10
      ∧ rowOfSequence chart 10 14 = none ∧ rowOfSequence chart 10 10 = some 0 ∧ rowOfSequence chart 10 13 = some 3
      ∧ (queued [.line (lineAt 10 230)]).rowEntry 0 0 = some (row (.firm (line 1 210)))
      ∧ (queued [.line (lineAt 13 230)]).rowEntry 0 3 = some (row .empty)
      ∧ (queued [.line (lineAt 11 230)]).rowEntry 0 1 = some (row (.provisional (line 1 100)))
      ∧ (lineInfoOf 0 1 48 .narrow (lineAt 11 115)).quality < 100 + 16
      ∧ 100 + 16 ≤ (lineInfoOf 0 1 48 .narrow (lineAt 11 116)).quality
      ∧ ((queued [.line (lineAt 13 230)]).frame 0).view = none
      ∧ (after .headTake (queued [.line (lineAt 13 230)])).map (fun t => ((t.source 0).counters.placed, t.writeQueue.length))
        = some (1, 1)
      ∧ (after .headTake (queued [.line (lineAt 10 230)])).map (fun t => (t.source 0).counters.mergedOut) = some 1 := by
  refine ⟨head_due _ ?_, head_due _ ?_, head_due _ ?_, head_due _ ?_, ?_⟩ <;> decide +kernel

/-- The row of the head is in flight, or the posted write queue is full. -/
def stalling : State :=
  let s := writing 1 false
  s.setSource 0 { s.source 0 with ring := [.line (lineAt 11 230)] }

def crammed : State :=
  { queued [.line (lineAt 13 230)] with writeQueue := List.replicate 8 { writeOp 0 with slot := 1 } }

theorem witness_HeadTakeDecidesTheLine_stalled_and_waiting :
    stalling.headDue 0 ∧ stalling.atRest ∧ stalling.rowEntry 0 1
        = some { row (.provisional (line 1 100)) with inFlight := .write (some (line 1 220)) }
      ∧ crammed.headDue 0 ∧ crammed.atRest ∧ 8 ≤ crammed.writeQueue.length
      ∧ (after .headTake crammed).map (fun t => (t.source 0).head) = some .waiting :=
  ⟨head_due stalling (by decide +kernel), (by decide +kernel : stalling.atRest), by decide +kernel,
    head_due crammed (by decide +kernel), by decide +kernel⟩

/-- A line outside the map at the head, after some rejections in a row. -/
def outside (st : SourceState) (n : Nat) : State :=
  (queued [.line (lineAt 14 230)]).modifySource 0 (fun x => { x with state := st, rejections := n })

theorem witness_HeadTakeDecidesTheLine_eighth_rejection :
    (outside .receiving 7).headDue 0 ∧ (outside .draining 7).headDue 0 ∧ (outside .receiving 7).atRest
      ∧ ((outside .receiving 7).source 0).state = .receiving ∧ ((outside .receiving 7).source 0).rejections = 7
      ∧ (outside .draining 7).atRest ∧ ((outside .draining 7).source 0).state = .draining
      ∧ (after .headTake (outside .receiving 7)).map (fun t => ((t.source 0).state, (t.source 0).ring, (t.source 0).rejections))
        = some (.draining, [.marker .overrun], 8)
      ∧ (after .headTake (outside .draining 7)).map (fun t => ((t.source 0).state, (t.source 0).ring, t.errors.length))
        = some (.draining, [], 1) :=
  ⟨head_due _ (by decide +kernel), head_due _ (by decide +kernel), by decide +kernel⟩

/-- The same with every pool row in use. -/
def drained : State := { overtaking false with pool := .replicate 512 (some { view := 1, frame := 2, row := 0 }) }

theorem drained_poolRow (q : PoolRow) : drained.poolRow q ≠ none := by simp [State.poolRow, drained]

theorem witness_HeadTakePreservesTheOldRow :
    ((overtaking false).headDue 0 ∧ (overtaking true).headDue 0 ∧ drained.headDue 0)
      ∧ (∀ q, drained.poolRow q ≠ none)
      ∧ (overtaking false).atRest ∧ ((overtaking false).source 0).firstSeq = some 10
      ∧ rowOfSequence chart 10 11 = some 1
      ∧ (overtaking false).rowEntry 0 1 = some (row (.provisional (line 1 100)))
      ∧ (1 < ((overtaking false).frame 0).pass) ∧ ((overtaking false).frame 0).view = some 0
      ∧ (overtaking false).view 0 = some (viewOf false 0) ∧ (overtaking true).view 0 = some (viewOf true 0)
      ∧ (overtaking false).poolRow 0 = none
      ∧ 100 + 16 ≤ (lineInfoOf 0 2 48 .narrow (lineAt 11 230)).quality
      ∧ (after .headTake (overtaking false)).map (fun t => (t.source 0).head) = some (.stalled 0 1) := by
  have due (s : State) (h : s.pointer = 0 ∧ (s.source 0).headReady = true) : s.headDue 0 := head_due s h
  refine ⟨⟨due _ ?_, due _ ?_, due _ ?_⟩, drained_poolRow, ?_⟩ <;> decide +kernel

/-- S0's ring holds its marker alone; with S1 joined too, or with a START held. -/
def ending : State := (queued [.marker .normal]).modifySource 0 (fun x => { x with state := .draining })

theorem witness_HeadTakeDetachesAtTheMarker :
    ending.headDue 0 ∧ (ending.modifySource 0 (fun x => { x with held := some startRecord })).headDue 0 ∧ ending.atRest
      ∧ (ending.source 0).held = none ∧ (ending.frame 0).state = .receiving
      ∧ (∀ j : SourceId, (setMember (ending.frame 0).joined 0 false)[j] = false)
      ∧ (∃ j : SourceId, (setMember (setMember (onlySource 0) 1 true) 0 false)[j] = true)
      ∧ (after .headTake ending).map (fun t => ((t.frame 0).state, (t.source 0).state)) = some (.settling, .idle)
      ∧ (idleBound.source 0).state = .idle ∧ idleBound.atRest
      ∧ (let s := ending.modifySource 0 (fun x => { x with held := some startRecord, silenceTimer := none })
        let u := (after .headTake ending).bind (after (.start 0 42980 .narrow .lpm120))
        s.atRest ∧ (after .headTake s).map (fun t => (t.source 0, t.frame 0, t.pointer))
            = u.map (fun v => ({ v.source 0 with silenceTimer := none }, v.frame 0, v.pointer))
          ∧ u.map (fun v => ((v.source 0).state, (v.frame 0).state)) = some (.phasing, .receiving)) :=
  ⟨head_due _ (by decide +kernel), head_due _ (by decide +kernel), by decide +kernel⟩

/-- F0 SETTLING with both marks set. -/
def settling (view : Option ViewId) (cursors : Nat) : State :=
  { holding { frameIn .settling 1 (.replicate 3 false) with
      enable := true, pendingMark := true, settleTimer := some 60000, view := view } with
    views := ready.views.set 0 (some (viewOf false cursors)) }

theorem witness_SettleExpiryJudgesThePass :
    ((settling none 0).frame 0).state = .settling ∧ ((settling none 0).frame 0).settleTimer = some 60000
      ∧ ((settling none 0).frame 0).geometry = some chart ∧ ((settling none 0).frame 0).mosaic = none
      ∧ ((settling none 0).frame 0).view = none ∧ ((settling (some 0) 1).frame 0).view = some 0
      ∧ (settling (some 0) 1).view 0 = some (viewOf false 1) ∧ (settling (some 0) 0).view 0 = some (viewOf false 0)
      ∧ ((settling none 0).client 0).levels[(1 : Fin 16)] ≠ 0
      ∧ (after (.settleExpiry 0) (settling (some 0) 0)).map (fun t => ((t.frame 0).state, t.view 0))
        = some (.partialOnly, none) := by decide +kernel

/-- The group GATHERING with its upper chart SETTLING. -/
def lastToSettle (lower : Frame) (m : Seam) : State :=
  mosaicOf .gathering { tallFrame 3 0 with state := .settling, settleTimer := some 60000 } lower m

/-- The state of M0, its stamp, its seam and what client 0 has pending, after F0 has settled. -/
def assembled (s : State) : Option (GroupState × Nat × Option Seam × List NoticeDetail) :=
  (after (.settleExpiry 0) s).map (fun t =>
    ((t.group 0).state, (t.group 0).stamp, t.seam 0 1, (t.client 0).pendingSet.map NoticePair.detail))

theorem witness_SettleExpiryJudgesThePass_in_a_group :
    ((lastToSettle (tallFrame 4 1) (seamIn .none)).frame 0).settleTimer = some 60000
      ∧ ((lastToSettle (tallFrame 4 1) (seamIn .none)).frame 0).mosaic = some (0, 0)
      ∧ ((lastToSettle (tallFrame 4 1) (seamIn .none)).group 0).state = .gathering
      ∧ (lastToSettle (tallFrame 4 1) (seamIn .none)).settledIn { tall 4 with frame := some 1 }
      ∧ assembled (lastToSettle (tallFrame 4 1) (seamIn .none)) = some (.joining, 2, some (seamIn .queued), [])
      ∧ assembled { lastToSettle (tallFrame 4 1) (seamIn .none) with seamQueue := List.replicate 8 (1, 1) }
        = some (.joining, 2, some (seamIn .waiting), [])
      ∧ assembled (lastToSettle (tallFrame 4 1) (seamIn .weak))
        = some (.joined, 2, some (seamIn .weak), [.mosaicJoined 72 1])
      ∧ assembled (lastToSettle { tallFrame 4 1 with state := .receiving } (seamIn .weak))
        = some (.gathering, 1, some (seamIn .weak), []) := by decide +kernel

/-- A read placed in a holder. -/
def readAt (issued : Option Nat) : ReadRequest :=
  { slot := 0, row := 0, drum := .narrow, pool := none, issued := issued, fate := .normal, abandoned := false
    viewGone := false }

/-- A write, a client read or the seam engine's read that waits for the interface. -/
def writeWaits : State := { ready with writeQueue := [writeOp 0, { writeOp 1 with issued := none }] }
def clientWaits : State := ({ ready with readPointer := 5 } : State).setHolder (.cursor 1) (some (readAt none))
def seamWaits : State := ready.setHolder .seam (some (readAt none))

theorem witness_ArbiterGrantsByClassAndPointer :
    (writeWaits.writeQueue = [writeOp 0] ++ { writeOp 1 with issued := none } :: []
      ∧ (∀ w ∈ [writeOp 0], w.issued.isSome = true)
      ∧ (after .arbiterGrant writeWaits).map (fun t => t.writeQueue.map WriteOp.issued) = some [some 5, some 0])
    ∧ ((∀ w ∈ clientWaits.writeQueue, w.issued.isSome = true) ∧ (1 : CursorId).val = (clientWaits.readPointer.val + 2) % 6
      ∧ clientWaits.holder (.cursor 1) = some (readAt none) ∧ clientWaits.holder (.cursor 5) = none
      ∧ clientWaits.holder (.cursor 0) = none ∧ (after .arbiterGrant clientWaits).map State.readPointer = some 2)
    ∧ ((∀ c, seamWaits.holder (.cursor c) = none) ∧ seamWaits.holder .seam = some (readAt none)
      ∧ (after .arbiterGrant seamWaits).map State.issueCount = some 1)
    ∧ (∀ c, ready.holder (.cursor c) = none) ∧ ready.holder .seam = none ∧ ready.writeQueue = [] := by decide +kernel

theorem witness_ConfirmedWriteIsStoredAndGraded :
    (writing 3 false).issuedOp 5 = some (writeOp 3) ∧ (writing 3 true).issuedOp 5 = some { writeOp 3 with stale := true }
      ∧ (writing 3 false).answerFloor ≤ 5
      ∧ (writing 3 false).rowEntry 0 3 = some { row .empty with inFlight := .write (some (line 1 220)) }
      ∧ (after (.writeConfirmed 5) (writing 3 false)).map (fun t => (t.rowEntry 0 3, (t.frame 0).coverage, t.memoryByte 3072))
        = some (some (row (.firm (line 1 220))), 3, 0#8) := by decide +kernel

theorem witness_FailedWriteDamagesItsRow :
    (writing 3 false).atRest ∧ (writing 3 false).issuedOp 5 = some (writeOp 3) ∧ (writing 3 false).answerFloor ≤ 5
      ∧ (writing 3 false).rowEntry 0 3 = some { row .empty with inFlight := .write (some (line 1 220)) }
      ∧ ((writing 3 false).frame 0).state.canFault = true ∧ ((writing 3 false).frame 0).memoryError = false
      ∧ (writing 3 false).errors = [] ∧ ((writing 3 false).client 0).levels[(13 : Fin 16)] ≠ 0
      ∧ (after (.writeFailed 5) (writing 3 false)).map (fun t => (t.frame 0).damaged) = some 1
      ∧ (after (.confirmationTimeout 5) (writing 3 false)).map (fun t => t.errors.map ErrorRecord.kind)
        = some [.writeTimeout] := by decide +kernel

/-- The error of a failed write folds, with the queue full, or is dropped; on a FAULTED frame it marks nothing. -/
theorem witness_FailedWriteDamagesItsRow_filings :
    let other := errorRecord 1 .linkLost none
    let own := { errorRecord 2 .writeFailed (some 0) with marking := false }
    let filed (s : State) := (after (.writeFailed 5) s).map (fun t =>
      ((t.frame 0).memoryError, t.errors.getLast?.map (fun q => (q.kind, q.repeats, q.lost, q.marking)),
        (t.client 0).pendingSet.map NoticePair.detail))
    filed { writing 3 false with errors := List.replicate 7 other ++ [own] }
        = some (true, some (.writeFailed, 1, 0, true), [.errorLogged .writeFailed .folded])
      ∧ filed { writing 3 false with errors := List.replicate 8 other }
        = some (false, some (.linkLost, 0, 1, false), [.errorLogged .writeFailed .dropped])
      ∧ filed { (writing 3 false).modifyFrame 0 (fun x => { x with state := .faulted }) with errors := [other] }
        = some (false, some (.writeFailed, 0, 0, false), [.errorLogged .writeFailed .appended]) := by decide +kernel

/-- The frame of the write is marked already. -/
def marked : State := (writing 3 false).modifyFrame 0 (fun x => { x with memoryError := true })

theorem witness_SecondMemoryErrorFaultsTheFrame :
    marked.atRest ∧ marked.issuedOp 5 = some (writeOp 3) ∧ marked.answerFloor ≤ 5
      ∧ marked.rowEntry 0 3 = some { row .empty with inFlight := .write (some (line 1 220)) }
      ∧ (marked.frame 0).state.canFault = true ∧ (marked.frame 0).memoryError = true
      ∧ (∀ i, (marked.source i).held = none) ∧ (marked.frame 0).joined[(0 : SourceId)] = true
      ∧ (marked.source 0).binding = some { frame := 0, pass := 1, geometry := chart }
      ∧ (after (.writeFailed 5) marked).map (fun t => ((t.frame 0).state, (t.source 0).state))
        = some (.faulted, .discarding) := by decide +kernel

/-- The write of `marked`, the copy of `copying`, and reads of a slot row and of a pool row, fail on a marked frame. -/
theorem witness_SecondMemoryErrorFaultsTheFrame_paths :
    let mark (s : State) : State := s.modifyFrame 0 (fun x => { x with memoryError := true })
    let write := row .empty
    let slot := mark (awaiting .normal)
    let pool := mark ((sharing [1]).setHolder (.cursor 1) (some { readAt (some 5) with pool := some 3 }))
    let faulted (c : Instr) (s : State) := (after c s).map (fun t => ((t.frame 0).state, t.errors.map ErrorRecord.detail))
    marked.memoryFails (.confirmationTimeout 5) 0 3 { write with inFlight := .write (some (line 1 220)) } (.damaged 1)
        .writeTimeout 1 1
      ∧ slot.memoryFails (.readTimeout (.cursor 0)) 0 0 (row (.firm (line 1 210))) (.damaged 1) .readCorrupt 1 5
      ∧ faulted (.confirmationTimeout 5) marked = some (.faulted, [1, 7])
      ∧ faulted (.copyFailed 5) (mark copying) = some (.faulted, [2, 6])
      ∧ faulted (.confirmationTimeout 5) (mark copying) = some (.faulted, [2, 7])
      ∧ faulted (.copyReadCorrupt 5) (mark copying) = some (.faulted, [3, 8])
      ∧ slot.atRest ∧ slot.jobsOk ∧ faulted (.readTimeout (.cursor 0)) slot = some (.faulted, [5, 8])
      ∧ (after (.readData (.cursor 0) (some [])) slot).map
        (fun t => ((t.port 0).buffer.map Response.status, (t.cursor 0).slot))
        = some (some .lost, .lost (onRows (.current 0) 0))
      ∧ faulted (.readData (.cursor 1) (some [])) pool = some (.faulted, [4, 8])
      ∧ (after (.readTimeout (.cursor 1)) pool).map (fun t => (t.view 0, t.poolRow 3)) = some (none, none) :=
  ⟨.inl ⟨5, writeOp 3, by decide +kernel, by decide, by decide, by decide,
      .inl ⟨⟨pixels, by decide +kernel⟩, by decide, by decide, by decide, .inr ⟨rfl, rfl⟩⟩⟩,
    .inr ⟨.cursor 0, 5, readAt (some 5), true, by decide +kernel, by decide, by decide, by decide, by decide, rfl,
      .inr ⟨rfl, rfl⟩, .inl ⟨by decide, by decide +kernel, by decide +kernel, rfl⟩⟩,
    by decide +kernel⟩

theorem witness_CopiesPreserveOrLoseTheirRow :
    copying.issuedOp 5 = some { writeOp 1 with kind := .rowCopy 0 (line 1 100), pass := 2 } ∧ copying.answerFloor ≤ 5
      ∧ copying.rowEntry 0 1 = some { row (.provisional (line 1 100)) with inFlight := .copy }
      ∧ copying.poolRow 0 = some { view := 0, frame := 0, row := 1 }
      ∧ copying.view 0 = some { viewOf false 0 with held := 1 } ∧ copying.atRest
      ∧ (copying.frame 0).state.canFault = true ∧ (copying.frame 0).memoryError = false
      ∧ (after (.copyFailed 5) copying).map (fun t => t.poolRow 0) = some none
      ∧ (after (.copyConfirmed 5) { copying with pool := .replicate 512 none }).map
        (fun t => (t.rowEntry 0 1).map RowEntry.preserved) = some (some (some 0))
      ∧ (after (.copyFailed 5) { copying with pool := .replicate 512 none }).map
        (fun t => ((t.rowEntry 0 1).map RowEntry.lost, t.view 0)) = some (some true, some { viewOf false 0 with held := 1 })
      ∧ (let s := { copying with writeQueue := copying.writeQueue.map (fun o => { o with stale := true }) }
        s.atRest ∧ s.issuedOp 5 = some { writeOp 1 with kind := .rowCopy 0 (line 1 100), pass := 2, stale := true }
          ∧ (after (.copyFailed 5) s).map (fun t => (t.rowEntry 0 1, t.errors))
            = some (some (row (.provisional (line 1 100))), []))
      ∧ (after (.confirmationTimeout 5) copying).map (fun t => (t.rowEntry 0 1).map RowEntry.lost) = some (some true)
      ∧ (after (.copyReadCorrupt 5) copying).map (fun t => (t.rowEntry 0 1).map RowEntry.state)
        = some (some (.damaged 1)) := by decide +kernel

/-- A write and a read that returned by their timers. -/
def belated : State := { ready with late := [{ issued := 5, op := some (writeOp 3) }, { issued := 6, op := none }] }

/-- A copy that did. -/
def belatedCopy : State :=
  { ready with late := [{ issued := 5, op := some { writeOp 1 with kind := .rowCopy 0 (line 1 100) } }] }

theorem witness_LateReportsAreDiscarded :
    belated.late.find? (fun l => l.issued == 6) = some { issued := 6, op := none }
      ∧ belated.late.find? (fun l => l.issued == 5) = some { issued := 5, op := some (writeOp 3) }
      ∧ (after (.lateReport 6 false) belated).map (fun t => (t.answerFloor, t.late)) = some (7, [])
      ∧ (after (.lateReport 5 true) belated).map (fun t => t.memory.length) = some 450
      ∧ belatedCopy.late.find? (fun l => l.issued == 5)
        = some { issued := 5, op := some { writeOp 1 with kind := .rowCopy 0 (line 1 100) } } := by decide +kernel

/-! ### Reservations, commits and pins -/

theorem witness_ReserveRecordsATarget :
    ready.accepts 0 [.schedule] ∧ (reading 0).accepts 0 [.frameEdit] ∧ ((reading 0).frame 0).state ≠ .free
      ∧ ((reading 0).frame 1).state = .free ∧ ready.accepts 0 [.mosaic]
      ∧ (let p := (ready.setPort 0 { ready.port 0 with mask := 1#8 }).port 0
        p.state = .idle ∧ p.holds [.schedule] = false ∧ p.holds [.frameEdit] = false ∧ p.holds [.mosaic] = false)
      ∧ (after (.reset 0#8 0#8 0#8) ready).map (fun t => (t.reservation 0).valid) = some false
      ∧ (after (.reserve 0 1 .frame 0) (reading 0)).map (fun t => t.reservation 0)
        = some { target := some (.frame 0), stamp := 7, valid := true } := by decide +kernel

theorem witness_CommitsAreTestedInOrder :
    clientFrame (.scheduleVacate 0 4 64) = some { port := 0, tag := 4, classes := [.schedule] }
      ∧ commitTarget (.scheduleVacate 0 4 64) = some none ∧ commitTarget (.scheduleVacate 0 4 3) = some (some (.entry 3))
      ∧ scheduled.accepts 0 [.schedule] ∧ (scheduled.reservation 0).valid = false
      ∧ ((reserved scheduled (.entry 4)).reservation 0).valid = true
      ∧ ((reserved scheduled (.entry 4)).reservation 0).target ≠ some (.entry 3)
      ∧ (let s := (reserved scheduled (.entry 3)).setEntry 3 { entry .active fields with stamp := 9 }
        (s.reservation 0).valid = true ∧ (s.reservation 0).target = some (.entry 3)
          ∧ (s.reservation 0).stamp ≠ s.stampOf (.entry 3)
          ∧ (after (.scheduleVacate 0 4 3) s).map (fun t => (t.port 0).buffer)
            = some (some { status := .conflict, tag := 4, body := [2#8, 0#8, 9#8] })) := by decide +kernel

/-- A frame RECEIVING through E3, its entry reserved. -/
def busyEntry : State := reserved (receiving .receiving) (.entry 3)

theorem witness_ScheduleCommitsChangeTheEntry :
    (reserved scheduled (.entry 3)).accepts 0 [.schedule] ∧ (reserved scheduled (.entry 3)).reserves 0 (.entry 3)
      ∧ busyEntry.accepts 0 [.schedule] ∧ busyEntry.reserves 0 (.entry 3) ∧ (busyEntry.frame 0).entry = some 3
      ∧ (busyEntry.frame 0).state = .receiving
      ∧ (∀ f, ¬ ((scheduled.frame f).entry = some 3))
      ∧ entryArgs.frequencies.length = 4 ∧ entryArgsAllowed entryArgs
      ∧ (entryArgs.frequencies.take entryArgs.frequencyCount).Nodup ∧ entryArgs.repeatOf = 255
      ∧ ¬ entryArgsAllowed { entryArgs with rows := 0 } ∧ ¬ entryArgsAllowed { entryArgs with rows := 2049 }
      ∧ entryArgsAllowed { entryArgs with rows := 2048, product := 4095, startMinute := 1439, tolerance := 15 }
      ∧ ((reserved scheduled (.entry 4)).entryAt 4).definition = none ∧ (reserved scheduled (.entry 4)).reserves 0 (.entry 4)
      ∧ (scheduled.entryAt 3).definition = some (.active, fields)
      ∧ (after (.scheduleWrite 0 1 3 entryArgs) (reserved scheduled (.entry 3))).map
        (fun t => ((t.entryAt 3).definition, (t.entryAt 3).stamp)) = some (some (.active, fields), 1)
      ∧ (after (.scheduleSuspend 0 1 3) busyEntry).map (fun t => (t.entryAt 3).definition)
        = some (some (.suspended, fields)) := by decide +kernel

/-- `reading` with F0 reserved by client 0, and with a pin of client 1 on it. -/
def releasable : State := reserved (reading 0) (.frame 0)
def pinnedByOther : State := releasable.modifyFrame 0 (fun x => x.setPin 1 true)

theorem witness_FrameCommitsAnnotateAndRelease :
    releasable.accepts 0 [.frameEdit] ∧ releasable.reserves 0 (.frame 0) ∧ releasable.atRest ∧ releasable.jobsOk
      ∧ (releasable.frame 0).state = .complete ∧ (releasable.frame 0).pins.isEmpty = true
      ∧ (reserved (receiving .receiving) (.frame 0)).reserves 0 (.frame 0)
      ∧ pinnedByOther.reserves 0 (.frame 0) ∧ (pinnedByOther.frame 0).pins.othersThan 0 = 1
      ∧ ([126#8] : List Byte).length ≤ 32 ∧ ¬ ([127#8] : List Byte).all (fun b => decide (b.toNat ≤ 126)) = true
      ∧ (after (.frameRelease 0 1 0) releasable).map (fun t => ((t.frame 0).state, (t.cursor 0).slot))
        = some (.free, .lost (onRows (.current 0) 0))
      ∧ (after (.frameRelease 0 1 0) pinnedByOther).map (fun t => (t.port 0).buffer)
        = some (some { status := .pinned, tag := 1, body := [1#8] })
      ∧ (after (.frameAnnotate 0 1 0 255 [126#8]) releasable).map (fun t => ((t.frame 0).title, (t.frame 0).stamp))
        = some ([126#8], 8) := by decide +kernel

/-- E3 and E4 of 40 rows, whose overlap of 8 needs 32, in no group; and in the group `gathered`. -/
def composable : State :=
  reserved ({ ready with
    schedule := (ready.schedule.set 3 (entry .active { fields with rows := 40 })).set 4
      (entry .active { fields with rows := 40 }) }) (.group 0)

theorem composable_definable : composable.definable .narrow [(3, 0), (4, 8)] := by
  refine ⟨by decide, by decide, fun k p h => ?_, fun j k d e hjk hd he => ?_⟩
  · match k, h with
    | 0, h => cases h; exact ⟨3, .active, { fields with rows := 40 }, by decide, by decide +kernel, by decide, by decide, by decide⟩
    | 1, h => cases h; exact ⟨4, .active, { fields with rows := 40 }, by decide, by decide +kernel, by decide, by decide, by decide⟩
    | _ + 2, h => simp at h
  · match j, k, hjk, hd, he with
    | 0, 1, _, hd, he =>
      have hd : d = 3 := Fin.ext (by simpa using hd.symm)
      have he : e = 4 := Fin.ext (by simpa using he.symm)
      subst hd he; decide +kernel
    | _ + 1, 1, h, _, _ => omega
    | _, 0, h, _, _ => omega
    | _, _ + 2, _, _, he => simp at he

theorem composable_not_definable (drum : DrumClass) : ¬ composable.definable drum [] := fun h => by
  simpa using h.1

theorem witness_MosaicCommitsDefineAndDissolve :
    composable.accepts 0 [.mosaic] ∧ composable.reserves 0 (.group 0) ∧ (composable.group 0).state = .undefined
      ∧ composable.definable .narrow [(3, 0), (4, 8)] ∧ (∀ drum, ¬ composable.definable drum [])
      ∧ composable.sectionOfEntry 3 = none ∧ composable.sectionOfEntry 4 = none
      ∧ (reserved gathered (.group 0)).reserves 0 (.group 0) ∧ ((reserved gathered (.group 0)).group 0).state ≠ .undefined
      ∧ (reserved gathered (.group 1)).reserves 0 (.group 1) ∧ ((reserved gathered (.group 1)).group 1).state = .undefined
      ∧ (reserved gathered (.group 1)).sectionOfEntry 4 = some (0, 1)
      ∧ (after (.mosaicDefine 0 1 0 [(3, 0), (4, 8)]) composable).map
        (fun t => ((t.group 0).state, (t.group 0).height, (t.group 0).stamp)) = some (.gathering, 72, 1)
      ∧ (after (.mosaicDefine 0 1 1 [(5, 0), (4, 8)]) (reserved gathered (.group 1))).map (fun t => (t.port 0).buffer)
        = some (some { status := .conflict, tag := 1, body := [3#8, 0#8, 0#8] })
      ∧ (after (.mosaicDissolve 0 1 0) (reserved gathered (.group 0))).map (fun t => t.group 0)
        = some (.undefinedWith 2) :=
  ⟨by decide +kernel, by decide +kernel, by decide +kernel, composable_definable, composable_not_definable,
    by decide +kernel⟩

/-- `composable` with charts of 40 rows in F1 to F4: E3's settled on day 2, RECEIVING or not in F2; E4's settled on days 1
and 2. -/
def stocked (st : FrameState) : State :=
  let chartOf (e : EntryId) (st : FrameState) (day : Nat) : Frame :=
    { tallFrame e 0 with mosaic := none, state := st, settledAt := some (day, 0) }
  { composable with
    frames := (((composable.frames.set 1 (chartOf 3 .complete 2)).set 2 (chartOf 3 st 1)).set 3
      (chartOf 4 .partialOnly 1)).set 4 (chartOf 4 .complete 2) }

/-- Where no frame is bound through E3 or E4, none fits. -/
theorem no_fit (s : State) (drum : DrumClass) (k : Nat) (f : FrameId)
    (h : ∀ f, (s.frame f).mosaic = none → (s.frame f).entry = none) : ¬ s.fitsDefinition 0 drum [(3, 0), (4, 8)] k f := by
  rintro ⟨_, hm, _, e, _, he, _⟩
  simp [h f hm] at he

/-- In a stocked state a frame fits section 0 only in F1 or F2, and section 1 only in F3 or F4. -/
theorem stocked_fits (st : FrameState) (k : Nat) (f : FrameId)
    (h : (stocked st).fitsDefinition 0 .narrow [(3, 0), (4, 8)] k f) :
    k = 0 ∧ (f = 1 ∨ f = 2) ∨ k = 1 ∧ (f = 3 ∨ f = 4) := by
  obtain ⟨-, -, -, e, p, he, hp, hm⟩ := h
  have hs : ∀ f : FrameId, ((stocked st).frame f).entry = none ∨ f = 1 ∧ ((stocked st).frame f).entry = some 3
      ∨ f = 2 ∧ ((stocked st).frame f).entry = some 3 ∨ f = 3 ∧ ((stocked st).frame f).entry = some 4
      ∨ f = 4 ∧ ((stocked st).frame f).entry = some 4 := by cases st <;> decide +kernel
  have hk : k = 0 ∧ p = (3, 0) ∨ k = 1 ∧ p = (4, 8) := by
    match k, hp with
    | 0, hp => exact .inl ⟨rfl, by simpa using hp.symm⟩
    | 1, hp => exact .inr ⟨rfl, by simpa using hp.symm⟩
    | _ + 2, hp => simp at hp
  have hn : p.1 = e.val := hm.elim id fun h => by
    have h3 := h.2.1 (3, 0) (by decide); have h4 := h.2.1 (4, 8) (by decide)
    rcases hs f with h | ⟨_, h⟩ | ⟨_, h⟩ | ⟨_, h⟩ | ⟨_, h⟩ <;> rw [h] at he <;> cases he <;> simp_all
  rcases hs f with h | ⟨hf, h⟩ | ⟨hf, h⟩ | ⟨hf, h⟩ | ⟨hf, h⟩ <;> rw [h] at he <;> cases he
    <;> rcases hk with ⟨rfl, rfl⟩ | ⟨rfl, rfl⟩ <;> simp_all

theorem stocked_fit (st : FrameState) (h : st = .receiving ∨ st = .complete) (f : FrameId) (hf : f = 1 ∨ f = 2 ∨ f = 3 ∨ f = 4) :
    (stocked st).fitsDefinition 0 .narrow [(3, 0), (4, 8)] (if f ≤ 2 then 0 else 1) f := by
  rcases h with rfl | rfl <;> rcases hf with rfl | rfl | rfl | rfl
  all_goals
    refine ⟨by decide +kernel, by decide +kernel, ⟨{ chart with rows := 40 }, by decide +kernel, by decide, by decide⟩, ?_⟩
    first
      | exact ⟨3, (3, 0), by decide +kernel, by decide, .inl (by decide)⟩
      | exact ⟨4, (4, 8), by decide +kernel, by decide, .inl (by decide)⟩

/-- The frames of M0's sections, its state and its height, after it has been defined. -/
def defined (s : State) : Option (Option FrameId × Option FrameId × GroupState × Nat) :=
  (after (.mosaicDefine 0 1 0 [(3, 0), (4, 8)]) s).map
    (fun t => (t.sectionFrame 0 0, t.sectionFrame 0 1, (t.group 0).state, (t.group 0).height))

/-- F2, RECEIVING, before F1, settled; F4 before F3, settled earlier; and with F2 settled too F1, settled later. -/
theorem witness_MosaicCommits_pick_frames_up :
    (stocked .receiving).accepts 0 [.mosaic] ∧ (stocked .receiving).reserves 0 (.group 0)
      ∧ (∀ h, h ≠ 0 → ∀ y ∈ ((stocked .receiving).group h).sections, ∀ p ∈ [(3, 0), (4, 8)], p.1 ≠ y.entry.val)
      ∧ (stocked .receiving).pickedUp 0 .narrow [(3, 0), (4, 8)] 0 2
      ∧ (stocked .receiving).pickedUp 0 .narrow [(3, 0), (4, 8)] 1 4
      ∧ (stocked .complete).pickedUp 0 .narrow [(3, 0), (4, 8)] 0 1
      ∧ (∀ k f, ¬ composable.fitsDefinition 0 .narrow [(3, 0), (4, 8)] k f)
      ∧ defined (stocked .receiving) = some (some 2, some 4, .gathering, 72)
      ∧ defined (stocked .complete) = some (some 1, some 4, .joining, 72)
      ∧ (after (.mosaicDefine 0 1 0 [(3, 0)]) (stocked .complete)).map (fun t => (t.sectionFrame 0 0, (t.group 0).state))
        = some (some 1, .joined) := by
  have fits := fun st h => stocked_fit st h
  refine ⟨by decide +kernel, by decide +kernel, by decide +kernel, ⟨fits _ (.inl rfl) 2 (by decide), .inl ⟨by decide +kernel, ?_⟩⟩,
    ⟨fits _ (.inl rfl) 4 (by decide), .inr ⟨?_, ?_⟩⟩, ⟨fits _ (.inr rfl) 1 (by decide), .inr ⟨?_, ?_⟩⟩,
    fun k f => no_fit _ _ k f (by decide +kernel), by decide +kernel⟩
  all_goals
    intro h hh
    rcases stocked_fits _ _ h hh with ⟨hk, rfl | rfl⟩ | ⟨hk, rfl | rfl⟩ <;> revert hk <;> decide +kernel

theorem witness_PinsJoinAndLeaveTheHolders :
    (reading 0).accepts 0 [.pin] ∧ ((reading 0).frame 0).state ≠ .free ∧ ((reading 0).frame 1).state = .free
      ∧ (((reading 0).modifyFrame 0 (fun x => x.setPin 0 true)).frame 0).pins.explicit[(0 : ClientId)] = true
      ∧ ((reading 0).frame 0).pins.explicit[(0 : ClientId)] = false
      ∧ (after (.pin 0 1 0) (reading 0)).map (fun t => ((t.frame 0).pins.count, (t.frame 0).stamp)) = some (1, 7)
      ∧ (after (.unpin 0 1 0) (pinnedByOther)).map (fun t => (t.port 0).buffer)
        = some (some { status := .noSuch, tag := 1, body := [] }) := by decide +kernel

/-! ### Cursors, reads and scans -/

theorem witness_CursorOpenAttachesACursor :
    ready.accepts 0 [.read] ∧ ready.accepts 0 [.read, .pin] ∧ ((reading 0).cursor 0).slot ≠ .closed
      ∧ ((reading 0).cursor 1).slot = .closed ∧ attachmentOf .current 24 = none
      ∧ attachmentOf .current 0 = some (.current 0) ∧ attachmentOf .previous 0 = some (.previous 0)
      ∧ attachmentOf .group 0 = some (.group 0) ∧ (ready.frame 0).state = .free
      ∧ ((holding (frameIn .faulted 1 (.replicate 3 false))).frame 0).state = .faulted
      ∧ ((reading 0).frame 0).view = none ∧ (ready.group 0).state = .undefined
      ∧ (reading 0).attachRefusal (.current 0) = none
      ∧ (after (.cursorOpen 0 1 { openArgs with cursor := 1, step := some (-1), retain := true }) (reading 0)).map
        (fun t => ((t.cursor 1).slot, (t.frame 0).pins.count))
        = some (.opened { onRows (.current 0) 3 with step := -1, retain := true }, 1)
      ∧ (after (.cursorOpen 0 1 { openArgs with cursor := 1, window := some (1, 4) }) (reading 0)).map
        (fun t => (t.port 0).buffer) = some (some { status := .badRequest, tag := 1, body := [] }) := by decide +kernel

/-- C0 open on the view of F0's pass 1, which has settled. -/
def onView : State :=
  { settling (some 0) 1 with
    frames := (settling (some 0) 1).frames.set 0 { frameIn .complete 2 (.replicate 3 false) with view := some 0 }
    cursors := ready.cursors.set 0 { slot := .opened (onRows (.previous 0) 0), job := none } }

theorem witness_CursorSetAndCloseChangeTheCursor :
    (reading 0).accepts 0 [.read] ∧ ready.accepts 0 [.read, .pin] ∧ ((reading 0).cursor 1).slot = .closed
      ∧ ((reading 0).cursor 0).slot = .opened (onRows (.current 0) 0)
      ∧ ((withCursor ready 0 (.lost (onRows (.current 0) 0))).cursor 0).slot = .lost (onRows (.current 0) 0)
      ∧ (reading 0).attachRefusal (.current 0) = none ∧ (reading 0).attachmentRows (.current 0) = 4
      ∧ onView.attachRefusal (.current 0) = none ∧ (onView.cursor 0).slot = .opened (onRows (.previous 0) 0)
      ∧ onView.attachmentRows (.current 0) = 4 ∧ (onView.frame 0).view = some 0 ∧ onView.view 0 = some (viewOf false 1)
      ∧ (after (.cursorSet 0 1 { setArgs with window := some (2, 2), position := some 3 }) (reading 0)).map
        (fun t => (t.cursor 0).slot) = some (.opened { onRows (.current 0) 3 with base := 2, length := 2 })
      ∧ (after (.cursorSet 0 1 { setArgs with hints := some (false, true) }) (reading 0)).map
        (fun t => (t.frame 0).pins.retain.toList) = some [true, false, false, false, false, false]
      ∧ (after (.cursorSet 0 1 { setArgs with window := some (2, 2) }) (reading 0)).map
        (fun t => ((t.cursor 0).slot, (t.port 0).buffer))
        = some (.opened (onRows (.current 0) 0), some { status := .badRequest, tag := 1, body := [] })
      ∧ (after (.cursorSet 0 1 { setArgs with attachment := some (.current, 0) }) onView).map
        (fun t => ((t.cursor 0).slot, t.view 0)) = some (.opened (onRows (.current 0) 0), none)
      ∧ (after (.cursorClose 0 1 0) onView).map (fun t => ((t.cursor 0).slot, t.view 0, (t.frame 0).stamp))
        = some (.closed, none, 8) := by decide +kernel

/-- C0, with RETAIN on a settled frame's view, moves to another frame's view; the first is released, the pins move. Refused,
it stays: no view, a FAULTED frame, a FREE one, a group UNDEFINED, no such slot. -/
theorem witness_CursorSet_to_another_attachment :
    let other := { frameIn .complete 2 (.replicate 3 false) with view := some 1, entry := none, root := none }
    let k := { onRows (.previous 0) 0 with retain := true }
    let s := { (((sharing [0]).setFrame 1 other).setFrame 2 (frameIn .faulted 1 (.replicate 3 false))).setFrame 3
        (frameIn .partialOnly 1 (.replicate 3 false)) with
      views := (sharing [0]).views.set 1 (some { viewOf false 0 with frame := 1 }) }
    let s := s.modifyFrame 0 (fun x => x.setRetain 0 true)
    let there (kind : AttachKind) (f : Nat) := { setArgs with attachment := some (kind, f) }
    let sets (a : CursorSetArgs) := (after (.cursorSet 0 1 a) s).map (fun t =>
      ((t.cursor 0).slot, (t.port 0).buffer.map Response.status, t.view 0, (t.view 1).map View.cursors))
    let refused (st : Status) := some (CursorSlot.opened k, some st, some (viewOf false 1), some 0)
    s.accepts 0 [.read] ∧ s.accepts 0 [.read, .pin] ∧ s.viewsOk ∧ (s.cursor 0).slot = .opened k
      ∧ sets { there .previous 1 with window := some (0, 2), step := some (-2), hints := some (true, true) } = some
        (.opened { k with attachment := .previous 1, length := 2, step := -2, follow := true }, some .ok, none, some 1)
      ∧ sets { there .previous 1 with step := some (-2) } = some
        (.opened { k with attachment := .previous 1, position := 3, step := -2 }, some .ok, none, some 1)
      ∧ (after (.cursorSet 0 1 (there .current 1)) s).map
        (fun t => ((t.frame 0).pins.retain[0], (t.frame 1).pins.retain[0], (t.frame 0).stamp)) = some (false, true, 8)
      ∧ sets (there .previous 3) = refused .noView ∧ sets (there .previous 2) = refused .faulted
      ∧ sets (there .current 4) = refused .noSuch ∧ sets (there .group 0) = refused .noSuch
      ∧ sets (there .current 24) = refused .badRequest ∧ sets { there .current 1 with step := some 17 } = refused .badRequest
      ∧ sets { there .current 1 with window := some (3, 2) } = refused .badRequest := by decide +kernel

/-- C0 on the rows of a SETTLING frame, with FOLLOW. -/
def following : State :=
  withCursor (settling none 0) 0 (.opened { onRows (.current 0) 3 with follow := true })

/-- FOLLOW stops no cursor that does not have it. -/
theorem no_stop (s : State) (k : CursorFields) (v : RowView) (h : k.follow = false) : ¬ s.stopsFollow k v :=
  fun x => by simp [x.1] at h

/-- FOLLOW stops at no row that holds neither an EMPTY entry nor one in flight. -/
theorem no_stop_at (s : State) (k : CursorFields) (v : RowView) (e : RowEntry) (h : v.showing = .standing e)
    (he : e.state ≠ .empty ∧ e.inFlight = .no) : ¬ s.stopsFollow k v := by
  rintro ⟨_, _, _, _, e', _, h', _, h'' | h''⟩ <;> rw [h] at h' <;> cases h' <;> simp_all

theorem witness_ReadsAnswerOrPlaceARead :
    (reading 2).accepts 0 [.read] ∧ ((reading 2).cursor 1).slot = .closed
      ∧ ((withCursor ready 0 (.lost (onRows (.current 0) 0))).cursor 0).slot = .lost (onRows (.current 0) 0)
      ∧ ((reading 2).cursor 0).slot = .opened (onRows (.current 0) 2)
      ∧ (∀ j : Nat, j < 2 → (reading 2).readFor ((reading 2).rowView (.current 0) (moveInWindow 0 4 2 (j * 1))) = none)
      ∧ (reading 0).readFor ((reading 0).rowView (.current 0) 0) = some (0, 0, .narrow, none)
      ∧ (reading 0).holder (.cursor 0) = none
      ∧ (following.cursor 0).slot = .opened { onRows (.current 0) 3 with follow := true }
      ∧ moveInWindow 0 4 3 0 = 3 ∧ following.rowEntry 0 3 = some (row .empty) ∧ (following.frame 0).state = .settling
      ∧ (after (.readNext 0 1 0 2) (reading 2)).map (fun t => ((t.cursor 0).slot, (t.port 0).state))
        = some (.opened (onRows (.current 0) 0), .done)
      ∧ (after (.readNext 0 1 0 1) following).map (fun t => (t.port 0).buffer.map Response.status) = some (some .notYet)
      ∧ (after (.readAt 0 1 0 (-64)) (reading 0)).map (fun t => ((t.port 0).state, (t.holder (.cursor 0)).isSome))
        = some (.executing, true) := by decide +kernel

/-- The status, the number of items and the length of the response on port 0, and the row of the read placed next. -/
def answered (t : State) : Option (Status × Option Byte × Nat) × Option Nat :=
  ((t.port 0).buffer.map (fun b => (b.status, b.body[2]?, b.body.length)), (t.holder (.cursor 0)).map ReadRequest.row)

/-- Rows 2 and 3, MISSED and EMPTY, then row 0, which holds a line; with C0's holder free, and with a discarded read in it. -/
theorem witness_ReadsAnswerOrPlaceARead_after_rows_at_once :
    (∀ j < 2, (reading 2).readFor ((reading 2).rowView (.current 0) (moveInWindow 0 4 2 ((j : Nat) * 1))) = none)
      ∧ (∀ v, ¬ (reading 2).stopsFollow (onRows (.current 0) 2) v)
      ∧ (reading 2).readFor ((reading 2).rowView (.current 0) (moveInWindow 0 4 2 2)) = some (0, 0, .narrow, none)
      ∧ (reading 2).holder (.cursor 0) = none
      ∧ (after (.readNext 0 1 0 3) (reading 2)).map
        (fun t => ((t.holder (.cursor 0)).map ReadRequest.row, (t.cursor 0).slot, (t.cursor 0).job.map (fun j => j.items.length)))
        = some (some 0, .opened (onRows (.current 0) 2), some 2)
      ∧ (let s := (reading 2).setHolder (.cursor 0) (some { readAt (some 5) with row := 1, abandoned := true })
        s.accepts 0 [.read] ∧ s.holder (.cursor 0) ≠ none
          ∧ (after (.readNext 0 1 0 3) s).map
            (fun t => ((t.holder (.cursor 0)).map ReadRequest.row, (t.cursor 0).job.map (fun j => (j.items.length, j.phase))))
            = some (some 1, some (2, .retake))
          ∧ (after (.readAt 0 1 0 2) s).map (fun t => (t.cursor 0).job.map (fun j => (j.items.length, j.phase)))
            = some (some (0, .retake))) :=
  ⟨by decide +kernel, fun v => no_stop _ _ v rfl, by decide +kernel⟩

/-- FOLLOW on rows 2 and 3 of a SETTLING frame: the MISSED row is given, the EMPTY one stops. -/
theorem witness_ReadsAnswerOrPlaceARead_follow_current :
    let k := { onRows (.current 0) 2 with follow := true }
    let s := withCursor (settling none 0) 0 (.opened k)
    s.accepts 0 [.read] ∧ s.readFor (s.rowView k.attachment 2) = none ∧ ¬ s.stopsFollow k (s.rowView k.attachment 2)
      ∧ s.stopsFollow k (s.rowView k.attachment 3)
      ∧ (after (.readNext 0 1 0 3) s).map answered = some (some (.notYet, some 1#8, 22), none)
      ∧ (after (.readNext 0 1 0 3) s).map (fun t => (t.cursor 0).slot) = some (.opened { k with position := 3 }) :=
  ⟨by decide +kernel, by decide +kernel, no_stop_at _ _ _ (row .missed) (by decide +kernel) (by decide),
    ⟨rfl, by decide +kernel, 0, 3, row .empty, by decide +kernel, by decide +kernel, by decide +kernel, by decide +kernel⟩,
    by decide +kernel⟩

/-- The same on a group whose upper chart is RECEIVING, MISSED in row 30 and EMPTY from row 31 on. -/
theorem witness_ReadsAnswerOrPlaceARead_follow_group :
    let upper : Frame := { tallFrame 3 0 with
      state := .receiving, joined := onlySource 0, coverage := 30, missed := 1
      rowMap := List.replicate 30 (row (.firm (line 1 210))) ++ [row .missed] ++ List.replicate 9 (row .empty) }
    let k := { onRows (.group 0) 30 with follow := true, length := 72 }
    let s := withCursor (mosaicOf .gathering upper (tallFrame 4 1) (seamIn .none)) 0 (.opened k)
    s.accepts 0 [.read] ∧ s.readFor (s.rowView k.attachment 30) = none ∧ ¬ s.stopsFollow k (s.rowView k.attachment 30)
      ∧ s.stopsFollow k (s.rowView k.attachment 31)
      ∧ (after (.readNext 0 1 0 2) s).map answered = some (some (.notYet, some 1#8, 22), none)
      ∧ (after (.readNext 0 1 0 2) s).map (fun t => (t.cursor 0).slot) = some (.opened { k with position := 31 }) :=
  ⟨by decide +kernel, by decide +kernel, no_stop_at _ _ _ (row .missed) (by decide +kernel) (by decide),
    ⟨rfl, by decide +kernel, 0, 31, row .empty, by decide +kernel, by decide +kernel, by decide +kernel, by decide +kernel⟩,
    by decide +kernel⟩

/-- A READ_NEXT on C0 whose first read is at the memory. -/
def awaitingOn (s : State) (k : CursorFields) (count : Nat) (r : ReadRequest) : State :=
  let item := itemAtOnce k.position (s.rowView k.attachment k.position)
  { s with
    cursors := s.cursors.set 0
      { slot := .opened k, job := some { kind := .readNext count, items := [], phase := .awaiting item r.slot r.row } }
    holders := s.holders.set 0 (some r)
    ports := s.ports.set 0 { s.port 0 with state := .executing, tag := 9 } }

/-- On `onView`, row 0 of pass 1 preserved in pool row 3. -/
def preserving : State :=
  onView.modifyFrame 0 (fun x => { x with rowMap := x.rowMap.modify 0 (fun e => { e with preserved := some 3 }) })

def keptLine : List Byte := 2#8 :: lineInfoBytes (line 1 100)

theorem witness_ReadReturnsCompleteOrDamage :
    (awaiting .normal).atRest ∧ (awaiting .normal).holder (.cursor 0) = some (readAt (some 5))
      ∧ (awaiting .normal).answerFloor ≤ 5 ∧ ((awaiting .normal).cursor 0).slot = .opened (onRows (.current 0) 0)
      ∧ ((awaiting .normal).cursor 0).job.map (fun j => (j.kind.rows, j.items.length)) = some (1, 0)
      ∧ (awaiting .normal).rowEntry 0 0 = some (row (.firm (line 1 210))) ∧ pixels.length = drumBytes .narrow
      ∧ (readAt (some 5)).checks [] = false ∧ ((awaiting .normal).frame 0).state.canFault = true
      ∧ ((awaiting .normal).frame 0).memoryError = false ∧ (awaiting .normal).errors = []
      ∧ (awaiting .vanished).holder (.cursor 0) = some { readAt (some 5) with fate := .vanished }
      ∧ (after (.readData (.cursor 0) (some (slotRecord 0 0 pixels))) (awaiting .normal)).map answered
        = some (some (.ok, some 1#8, 470), none)
      ∧ (after (.readTimeout (.cursor 0)) (awaiting .normal)).map
        (fun t => ((t.port 0).buffer.map Response.status, (t.rowEntry 0 0).map RowEntry.state))
        = some (some .rowDamaged, some (.damaged 1)) := by decide +kernel

/-- Rows 0 and 2 of a frame, of which row 2 holds no line; then row 0 again. -/
theorem witness_ReadReturns_of_a_frame_row :
    let k := { onRows (.current 0) 0 with step := 2 }
    let s := awaitingOn (reading 0) k 3 (readAt (some 5))
    s.atRest ∧ s.readFor (s.rowView k.attachment (moveInWindow 0 4 0 2)) = none
      ∧ (s.readFor (s.rowView k.attachment (moveInWindow 0 4 0 4))).isSome = true
      ∧ (after (.readData (.cursor 0) (some (slotRecord 0 0 pixels))) s).map answered = some (none, some 0)
      ∧ (after (.readData (.cursor 0) (some (slotRecord 0 0 pixels)))
          (awaitingOn (reading 0) k 2 (readAt (some 5)))).map answered = some (some (.ok, some 2#8, 489), none) := by
  decide +kernel

/-- With FOLLOW, row 1 of a SETTLING frame, then row 2, MISSED, then row 3, EMPTY, which stops. -/
theorem witness_ReadReturns_until_follow_stops :
    let k := { onRows (.current 0) 1 with follow := true }
    let s := awaitingOn (settling none 0) k 3 { readAt (some 5) with row := 1 }
    s.atRest ∧ s.rowEntry 0 1 = some (row (.provisional (line 1 100)))
      ∧ s.readFor (s.rowView k.attachment 2) = none ∧ ¬ s.stopsFollow k (s.rowView k.attachment 2)
      ∧ s.stopsFollow k (s.rowView k.attachment 3)
      ∧ (after (.readData (.cursor 0) (some (slotRecord 0 1 pixels))) s).map answered
        = some (some (.notYet, some 2#8, 489), none) :=
  ⟨by decide +kernel, by decide +kernel, by decide +kernel,
    no_stop_at _ _ _ (row .missed) (by decide +kernel) (by decide),
    ⟨rfl, by decide +kernel, 0, 3, row .empty, by decide +kernel, by decide +kernel, by decide +kernel, by decide +kernel⟩,
    by decide +kernel⟩

/-- A preserved row from its pool row; then row 1 through the view, which shows it as it stands. -/
theorem witness_ReadReturns_of_a_view_row :
    let s := awaitingOn preserving (onRows (.previous 0) 0) 2 { readAt (some 5) with pool := some 3 }
    let u := awaitingOn preserving (onRows (.previous 0) 1) 1 { readAt (some 5) with row := 1 }
    s.atRest ∧ keptLine.length = 6 ∧ (s.rowView (.previous 0) 0).showing = .preserved 3
      ∧ (after (.readData (.cursor 0) (some (poolRecord 3 pixels keptLine))) s).map answered = some (none, some 1)
      ∧ u.atRest ∧ (u.rowView (.previous 0) 1).showing = .standing (row (.provisional (line 1 100)))
      ∧ (after (.readData (.cursor 0) (some (slotRecord 0 1 pixels))) u).map answered
        = some (some (.ok, some 1#8, 470), none) := by decide +kernel

/-- The read of pool row 3 for row 0 of F0, held by V0, fails: the row is lost to the view, and the pool row is free; after
the view's release nothing is reported. -/
theorem witness_ReadReturns_of_a_failed_pool_row :
    let failing (gone : Bool) : ReadRequest := { readAt (some 5) with pool := some 3, viewGone := gone }
    let s := { awaitingOn (sharing [0]) (onRows (.previous 0) 0) 1 (failing false) with
      views := (sharing [0]).views.set 0 (some { viewOf false 1 with held := 1 }) }
    let u := awaitingOn (sharing [0]) (onRows (.previous 0) 0) 1 (failing true)
    let seen (t : State) := (t.rowEntry 0 0, t.poolRow 3, (t.view 0).map View.held, t.errors.map ErrorRecord.detail,
      (t.port 0).buffer.map Response.status)
    let e := { row (.firm (line 2 210)) with preserved := some 3 }
    s.atRest ∧ s.rowEntry 0 0 = some e ∧ s.poolRow 3 = some { view := 0, frame := 0, row := 0 }
      ∧ (failing false).checks [] = false ∧ (s.frame 0).state.canFault = true ∧ (s.frame 0).memoryError = false
      ∧ (after (.readData (.cursor 0) (some [])) s).map seen
        = some (some { e with preserved := none, lost := true }, none, some 0, [4], some .rowDamaged)
      ∧ (after (.readTimeout (.cursor 0)) s).map (fun t => t.errors.map ErrorRecord.detail) = some [7]
      ∧ u.atRest ∧ (after (.readTimeout (.cursor 0)) u).map seen
        = some (some e, some { view := 0, frame := 0, row := 0 }, some 0, [], some .rowDamaged) := by decide +kernel

/-- A composite row, and the next. -/
theorem witness_ReadReturns_of_a_composite_row :
    let s := awaitingOn joining { onRows (.group 0) 39 with length := 72 } 2 { readAt (some 5) with row := 39 }
    s.atRest ∧ s.rowEntry 0 39 = some (row (.firm (line 1 210)))
      ∧ (after (.readData (.cursor 0) (some (slotRecord 0 39 pixels))) s).map
        (fun t => (t.holder (.cursor 0)).map (fun r => (r.slot, r.row))) = some (some (1, 8)) := by decide +kernel

/-- Row 1 of the frame in each way that its view can show it. -/
def viewed (e : RowEntry) : State :=
  onView.modifyFrame 0 (fun x => { x with rowMap := x.rowMap.set 1 e })

theorem witness_MapReadsAndScansReportRows_views :
    ((viewed (row .missed)).frame 0).view = some 0 ∧ (viewed (row .missed)).view 0 = some (viewOf false 1)
      ∧ ((viewed { row (.firm (line 2 210)) with preserved := some 511, lost := true }).rowView (.previous 0) 1).showing
        = .preserved 511
      ∧ ((viewed { row (.firm (line 2 210)) with lost := true }).rowView (.previous 0) 1).showing = .lost
      ∧ ((viewed (row (.firm (line 2 210)))).rowView (.previous 0) 1).showing = .blank
      ∧ ((viewed (row (.damaged 2))).rowView (.previous 0) 1).showing = .blank
      ∧ ((viewed (row (.damaged 1))).rowView (.previous 0) 1).showing = .standing (row (.damaged 1))
      ∧ ((viewed (row .missed)).rowView (.previous 0) 1).showing = .standing (row .missed) := by decide +kernel

/-- The composite of a group whose sections overlap in rows 32 to 39; the upper chart MISSED there. -/
def overlapping (upper : RowState) : State :=
  mosaicOf .joined { tallFrame 3 0 with rowMap := List.replicate 40 (row upper) } (tallFrame 4 1) (seamIn .found)

def sectionNamed (s : State) (c : Nat) : Option (Nat × Nat) := (s.rowView (.group 0) c).naming.map (fun n => (n.index, n.row))

theorem covers_of (s : State) (k c : Nat) (h : ((s.group 0).sections[k]?).any (fun x =>
    decide (s.topOf (s.group 0).sections k ≤ c ∧ (c : Int) < s.topOf (s.group 0).sections k + s.rowsOf x)) = true) :
    s.covers 0 k c := by
  obtain ⟨x, hx, hc⟩ := (Option.any_eq_true _ _).mp h
  exact ⟨x, hx, of_decide_eq_true hc⟩

theorem witness_MapReadsAndScansReportRows_composite :
    (overlapping .missed).covers 0 0 39 ∧ (overlapping .missed).covers 0 1 32 ∧ (overlapping .missed).covers 0 1 71
      ∧ gradeOf ((overlapping .missed).sectionEntry 0 0 39) < gradeOf ((overlapping .missed).sectionEntry 0 1 39)
      ∧ (sectionNamed (overlapping .missed) 31, sectionNamed (overlapping .missed) 32,
          sectionNamed (overlapping .missed) 39, sectionNamed (overlapping .missed) 71,
          sectionNamed (overlapping .missed) 72) = (some (0, 31), some (1, 0), some (1, 7), some (1, 39), none)
      ∧ sectionNamed (overlapping (.firm (line 1 210))) 32 = some (0, 32)
      ∧ (gathered.rowView (.group 0) 0).showing = .blank :=
  ⟨covers_of _ _ _ (by decide +kernel), covers_of _ _ _ (by decide +kernel), covers_of _ _ _ (by decide +kernel),
    by decide +kernel⟩

/-- The codes of the conditions that a showing satisfies, with the parameter 1. -/
def codesOf (v : Showing) : List Nat := (List.range 12).filter (fun c => (scanConditionOf c 1).any (fun x => x.holds v))

/-- The conditions of SCAN at the ends of their parameters, and on the showings that are no entry. -/
theorem witness_MapReadsAndScansReportRows_conditions :
    (scanConditionOf 7 255, scanConditionOf 7 256, scanConditionOf 9 2, scanConditionOf 11 0, scanConditionOf 11 15,
        scanConditionOf 11 16) = (some (.qualityBelow 255), none, some (.sourceIs 2), none, some (.passIs 15), none)
      ∧ codesOf (.preserved 0) = [2, 6] ∧ codesOf .lost = [] ∧ codesOf .blank = [0, 5] := by decide +kernel

theorem witness_MapReadsAndScansReportRows :
    (reading 0).accepts 0 [.read] ∧ attachmentOf .current 24 = none ∧ attachmentOf .current 0 = some (.current 0)
      ∧ ((reading 0).frame 1).state = .free ∧ ((reading 0).frame 0).state ≠ .free ∧ ((reading 0).frame 0).view = none
      ∧ ((reading 0).group 0).state = .undefined ∧ (reading 0).mapRefusal (.current 0) = none
      ∧ (reading 0).attachmentRows (.current 0) = 4 ∧ scanConditionOf 12 0 = none ∧ scanConditionOf 9 3 = none
      ∧ scanConditionOf 1 0 = some .missed ∧ ((reading 0).cursor 1).slot = .closed
      ∧ ((reading 0).cursor 0).slot = .opened (onRows (.current 0) 0)
      ∧ (after (.scan 0 1 0 1 0 3) (reading 0)).map (fun t => ((t.cursor 0).slot, (t.port 0).buffer.map (fun b => b.body.getLast?)))
        = some (.opened (onRows (.current 0) 2), some (some 3#8))
      ∧ (after (.scan 0 1 0 1 0 2) (reading 0)).map (fun t => ((t.cursor 0).slot, (t.port 0).buffer.map (fun b => b.body.getLast?)))
        = some (.opened (onRows (.current 0) 1), some (some 2#8))
      ∧ (after (.readMap 0 1 .current 0 3 64) (reading 0)).map (fun t => (t.port 0).buffer.map (fun b => b.body.length))
        = some (some 17) := by decide +kernel

/-! ### Notices and errors -/

/-- Client 0 with a GAP and a FADE pending. -/
def noticed : State :=
  ready.setClient 0 { NoticeClient.powerOn with levels := .replicate 16 5, line := true
                                                pendingSet := [pair (.gap 0 7), pair (.fade (some 0) true)] }

theorem witness_NoticeCommandsKeepTheClientsRecord :
    noticed.accepts 0 [.notice]
      ∧ ((noticed.client 0).pendingSet.find? (fun p => decide (p.detail.kindCode = 6 ∧ p.origin.code = (0, 0))))
        = some (pair (.gap 0 7))
      ∧ ((noticed.client 0).pendingSet.find? (fun p => decide (p.detail.kindCode = 6 ∧ p.origin.code = (0, 1)))) = none
      ∧ (after (.noticeSetLevels 0 1 [(6, 0), (16, 7)]) noticed).map
        (fun t => ((t.client 0).pendingSet, (t.client 0).levels[(15 : Fin 16)], (t.client 0).line))
        = some ([pair (.fade (some 0) true)], 7, true)
      ∧ (after (.noticeSetLevels 0 1 [(6, 0), (6, 1)]) noticed).map (fun t => (t.client 0).pendingSet.length) = some 2
      ∧ (after (.noticeSetThreshold 0 1 7) noticed).map (fun t => (t.client 0).line) = some false
      ∧ (after (.noticeAck 0 1 6 0 0 1 2) noticed).map (fun t => (t.port 0).buffer.map Response.status)
        = some (some .conflict)
      ∧ (after (.noticeAck 0 1 6 0 0 1 1) noticed).map (fun t => (t.client 0).pendingSet)
        = some [pair (.fade (some 0) true)] := by decide +kernel

theorem witness_NoticesAreFiledOrMerged :
    noticed.accepts 0 [.relay] ∧ ((noticed.client 1).levels[(15 : Fin 16)] = 0)
      ∧ ((noticed.client 0).levels[(15 : Fin 16)] ≠ 0)
      ∧ (noticed.client 0).inOrder
      ∧ (after (.noticeRaise 1 1 0 255) noticed).map (fun t => (t.client 0).pendingSet.map NoticePair.origin)
        = some [.source 0, .source 0, .client 1]
      ∧ ((noticed.client 0).offer (.source 0) (.gap 1 9)).pendingSet.map (fun p => (p.detail, p.count))
        = [(.gap 1 9, 2), (.fade (some 0) true, 1)] := by decide +kernel

/-- Three error records, the second marking F0. -/
def logged : State :=
  { reading 0 with
    errors := [errorRecord 4 .linkCheck none, errorRecord 5 .writeFailed (some 0), errorRecord 6 .readCorrupt (some 1)]
    logCounter := 7
    frames := (reading 0).frames.set 0 { (reading 0).frame 0 with memoryError := true } }

theorem witness_ErrorsPeekRemovesNothing :
    logged.accepts 0 [.read]
      ∧ (after (.errorsPeek 0 1 8) logged).map (fun t => (t.errors.length, (t.port 0).buffer.map (fun b => b.body.take 2)))
        = some (3, some [3#8, 3#8]) := by decide +kernel

theorem witness_ErrorsAreTakenAndFiled :
    logged.accepts 0 [.read] ∧ (∀ r ∈ logged.errors, r.number ≠ 7)
      ∧ logged.errors = [errorRecord 4 .linkCheck none] ++ errorRecord 5 .writeFailed (some 0) :: [errorRecord 6 .readCorrupt (some 1)]
      ∧ (after (.errorsTake 0 1 5) logged).map (fun t => (t.errors.map ErrorRecord.number, (t.frame 0).memoryError))
        = some ([6], false)
      ∧ ready.errors = [] ∧ logged.errors.length < 8
      ∧ (logged.logError { kind := .readCorrupt, origin := .memory, frame := some 1, row := none, pass := none, detail := 0 }).errors.map
        ErrorRecord.repeats = [0, 0, 1] := by decide +kernel

/-! ### The seam engine -/

/-- A search whose lower window fits the upper one at shift +1: rows of grey 0, then 15. -/
def search : Search :=
  let upper : List Byte := List.replicate 2 255#8
  let lower : List Byte := List.replicate 2 0#8
  { group := 0, seam := 1, drum := .narrow, upperFrame := 0, lowerFrame := 1, upperRows := 40, overlap := 8
    taken := List.replicate 13 (some lower) ++ List.replicate 7 (some upper) ++ List.replicate 8 (some upper) }

theorem witness_SeamSearchTakesTheBestShift :
    joining.engine = none ∧ joining.seamQueue = [(0, 1)] ∧ joining.sectionFrame 0 0 = some 0
      ∧ joining.sectionFrame 0 1 = some 1
      ∧ joining.seam 0 1 = some (seamIn .queued)
      ∧ (joining.group 0).drum = some .narrow ∧ (joining.frame 0).geometry = some { chart with rows := 40 }
      ∧ joining.seamHolder = none ∧ (joining.group 0).state = .joining
      ∧ joining.rowEntry 0 (40 - min 40 (8 + 12)) = some (row (.firm (line 1 210)))
      ∧ (after .seamJobTake joining).map (fun t => (t.seam 0 1).map Seam.state) = some (some .searching)
      ∧ ready.seamQueue = []
      ∧ search.best = some { shift := 1, sum := 0, pairs := 7 } ∧ search.scoreAt (-12) = some { shift := -12, sum := 480, pairs := 8 }
      ∧ ({ search with taken := [] } : Search).best = none := by decide +kernel

/-- The engine on the seam of M0, its last read at the memory, `k` rows taken before it. -/
def searching (st : GroupState) (lower : Frame) (k : Nat) : State :=
  let x : Search := { search with taken := List.replicate k (some [0#8, 0#8]) }
  { mosaicOf st (tallFrame 3 0) lower (seamIn .searching) with
    engine := some x
    seamHolder := some { readAt (some 5) with slot := (x.windowRow k).1, row := (x.windowRow k).2 } }

/-- The lower chart with lines in its first 6 rows alone. -/
def sparse : Frame :=
  { tallFrame 4 1 with
    rowMap := List.replicate 6 (row (.firm (line 1 210))) ++ List.replicate 34 (row .missed), coverage := 6 }

/-- The rows taken, the read placed, the group's state and the seam, after a seam read has come back. -/
def searched (t : State) : Option Nat × Option (FrameId × Nat) × GroupState × Option Seam :=
  (t.engine.map (fun x => x.taken.length), t.seamHolder.map (fun r => (r.slot, r.row)), (t.group 0).state, t.seam 0 1)

theorem witness_SeamSearch_rows_and_result :
    search.windowLength = 28 ∧ search.windowRow 19 = (0, 39) ∧ search.windowRow 20 = (1, 0) ∧ search.windowRow 25 = (1, 5)
      ∧ (searching .joining sparse 19).atRest
      ∧ (after (.readData .seam (some (slotRecord 0 39 pixels))) (searching .joining sparse 19)).map searched
        = some (some 20, some (1, 0), .joining, some (seamIn .searching))
      ∧ (searching .joining sparse 25).atRest ∧ (searching .joining sparse 25).rowEntry 1 6 = some (row .missed)
      ∧ (after (.readData .seam (some (slotRecord 1 5 pixels))) (searching .joining sparse 25)).map searched
        = some (none, none, .joined, some { seamIn .found with score := some 0 })
      ∧ (after (.readData .seam (some (slotRecord 1 5 pixels)))
          (searching .gathering { sparse with state := .receiving } 25)).map searched
        = some (none, none, .gathering, some { seamIn .found with score := some 0 }) := by decide +kernel

/-- `joining` with lines in the last `k` rows of its upper chart, and in the lower one or not; and what the engine then has. -/
def linesBelow (k : Nat) (lower : Bool) : State :=
  let s := joining.modifyFrame 0 (fun x =>
    { x with rowMap := List.replicate (40 - k) (row .missed) ++ List.replicate k (row (.firm (line 1 210))) })
  if lower then s else s.modifyFrame 1 (fun x => { x with rowMap := List.replicate 40 (row .missed) })

/-- The engine passes over 10 rows to row 30 of the upper chart; finds no line at all; waits for a discarded read; and a
WAITING seam of M3 joins a queue of 7 others, of which the one that would be the ninth does not. -/
theorem witness_SeamSearch_takes_its_job :
    (after .seamJobTake (linesBelow 10 true)).map searched
        = some (some 10, some (0, 30), .joining, some (seamIn .searching))
      ∧ (after .seamJobTake (linesBelow 0 false)).map searched
        = some (none, none, .joined, some { seamIn .weak with score := none })
      ∧ (after .seamJobTake (joining.setHolder .seam (some { readAt (some 5) with abandoned := true }))).map searched
        = some (some 0, some (0, 0), .joining, some (seamIn .searching))
      ∧ (let waits := { tall 4 with seam := some (seamIn .waiting) }
        let s := { joining with
          seamQueue := joining.seamQueue ++ (List.range 7).map (fun j => (7, j))
          groups := joining.groups.set 3 { joining.group 0 with sections := [tall 3, waits, waits] } }
        (after .seamJobTake s).map (fun t => (t.seamQueue.drop 7, (t.seam 3 1).map Seam.state, (t.seam 3 2).map Seam.state))
          = some ([(3, 1)], some .queued, some .waiting)) := by decide +kernel

/-- A search of `n` rows in each window, the upper black, the lower of grey 15 in 58 pixels and of the greys given in two. -/
def contrast (n : Nat) (last : Byte) : Search :=
  let lower : List Byte := List.replicate 29 255#8 ++ [last]
  { group := 0, seam := 1, drum := .narrow, upperFrame := 0, lowerFrame := 1, upperRows := n, overlap := n
    taken := List.replicate n (some (List.replicate 30 0#8)) ++ List.replicate n (some lower) }

/-- A difference of 896 a row over 896 columns is a score of 1 exactly, at the accept limit of 1; 897 exceeds it. With 4
counted pairs the seam is FOUND at the limit, with 3 WEAK. -/
theorem witness_SeamSearch_bounds :
    (contrast 4 0xDD#8).best = some { shift := 0, sum := 4 * 896, pairs := 4 }
      ∧ (contrast 4 0xDE#8).best = some { shift := 0, sum := 4 * 897, pairs := 4 }
      ∧ (contrast 3 0xDD#8).best = some { shift := 0, sum := 3 * 896, pairs := 3 }
      ∧ (seamIn .searching).withResult (contrast 4 0xDD#8) 1 = { seamIn .found with score := some 16 }
      ∧ (seamIn .searching).withResult (contrast 4 0xDE#8) 1 = { seamIn .weak with score := some 16 }
      ∧ (seamIn .searching).withResult (contrast 3 0xDD#8) 1 = { seamIn .weak with score := some 16 } := by decide +kernel

/-- No row usable: no shift has a score, and there is no best one. -/
theorem witness_SeamSearch_no_score :
    let x : Search := { search with taken := List.replicate 28 none }
    x.best = none ∧ x.scoreAt (-12) = none ∧ x.scoreAt 12 = none
      ∧ (seamIn .searching).withResult x 3 = seamIn .weak := by decide +kernel

/-! ### The invariants -/

/-- `sectionsOk`, over the sections and memberships there are. -/
theorem sectionsOk_of (s : State) (h : ∀ f, ∀ p ∈ (s.frame f).mosaic, s.sectionFrame p.1 p.2 = some f)
    (h' : ∀ g, ∀ x ∈ (s.group g).sections.zipIdx, ∀ f ∈ x.1.frame, (s.frame f).mosaic = some (g, x.2))
    (hf : ∀ f, (s.frame f).state = .free → (s.frame f).mosaic = none)
    (hg : ∀ g, (s.group g).state = .undefined → (s.group g).sections = []) : s.sectionsOk := by
  refine ⟨fun f g k => ⟨fun e => h f (g, k) e, fun e => ?_⟩, hf, hg⟩
  obtain ⟨x, hx, hy⟩ := Option.bind_eq_some_iff.mp e
  exact h' g (x, k) (List.mk_mem_zipIdx_iff_getElem?.mpr hx) f hy

theorem witness_StepsKeepTheInvariants_of_sections_and_rejections :
    joined.sectionsOk ∧ ∀ i, ((rejecting 8).source i).rejections ≤ 8 :=
  ⟨sectionsOk_of _ (by decide +kernel) (by decide +kernel) (by decide +kernel) (by decide +kernel), by decide +kernel⟩

theorem witness_StepsKeepTheInvariants :
    (writing 3 false).memoryOk ∧ (writing 3 false).noticesOk ∧ (writing 3 false).queuesOk ∧ (writing 3 false).ringsOk
      ∧ (writing 3 false).atRest ∧ (writing 3 false).jobsOk ∧ (awaiting .normal).jobsOk ∧ (sharing [0, 2]).viewsOk
      ∧ (∀ f, (anyMember ((writing 3 false).frame f).joined = true ↔ ((writing 3 false).frame f).state = .receiving)
        ∧ ((writing 3 false).frame f).coverage = ((writing 3 false).frame f).rowMap.countP (fun e => e.state.isFilled)
        ∧ ((writing 3 false).frame f).missed = ((writing 3 false).frame f).rowMap.countP (fun e => e.state.isMissed)
        ∧ ((writing 3 false).frame f).damaged = ((writing 3 false).frame f).rowMap.countP (fun e => e.state.isDamaged)) := by
  decide +kernel

/-! ### Worked examples of the spec -/

/-- The check word of the bytes 1 to 9 in ASCII is 29B1 hex, as for every CRC-16 of section 2.1's form. -/
theorem test_crc16_of_the_nine_digits :
    crc16 [0x31#8, 0x32#8, 0x33#8, 0x34#8, 0x35#8, 0x36#8, 0x37#8, 0x38#8, 0x39#8] = 0x29B1#16 := by decide +kernel

/-- R5 and R6: minute 3 lies 5 minutes from 1438, counted round midnight, and 5 from 8. -/
theorem test_minuteDistance_round_midnight : minuteDistance 3 1438 = 5 ∧ minuteDistance 3 8 = 5 := by decide

/-- R148: base 760, length 40, position 770 and an offset of -15 give row 795. -/
theorem test_moveInWindow_wraps : moveInWindow 760 40 770 (-15) = 795 := by decide

/-- A record of a link, and a frame of a port, from their bytes. -/
theorem test_decode_a_stop_record_and_a_get_clock_frame :
    decodeLinkBytes 1 ([0xC3#8] ++ ([4#8, 0#8, 0#8] ++ checkBytes (crc16 [4#8, 0#8, 0#8]))) = [.stop 1]
      ∧ decodeRequest 2 ([3#8, 7#8, 0#8, 0#8] ++ checkBytes (crc16 [3#8, 7#8, 0#8, 0#8])) = .getClock 2 7
      ∧ decodeRequest 2 [3#8, 7#8, 0#8, 0#8, 0#8, 0#8] = .requestRefused 2 (some 7) .check := by decide +kernel

end Sys2Proof.Tests
end

section
/-! SUPPORT. The writes of one table after one another, notices and answers as single writes of their table, and what leaves
a state at rest. -/

namespace Sys2Proof.Machine

/-! ### A write over a write -/

@[simp] theorem State.setSource_setSource (s : State) (i : SourceId) (x y : Source) :
    (s.setSource i x).setSource i y = s.setSource i y := by
  simp [State.setSource]

@[simp] theorem State.setFrame_setFrame (s : State) (f : FrameId) (x y : Frame) :
    (s.setFrame f x).setFrame f y = s.setFrame f y := by
  simp [State.setFrame]

@[simp] theorem State.setFrame_self (s : State) (f : FrameId) : s.setFrame f (s.frame f) = s := by
  simp [State.setFrame, State.frame]

theorem State.setFrame_setSource (s : State) (i : SourceId) (x : Source) (f : FrameId) (y : Frame) :
    (s.setSource i x).setFrame f y = (s.setFrame f y).setSource i x := rfl

/-! ### Notices and answers as writes of one table -/

/-- A notice is offered to each client, and changes nothing else (R167). -/
theorem State.raise_eq (s : State) (o : Origin) (d : NoticeDetail) :
    s.raise o d = { s with clients := s.clients.map (fun c => c.offer o d) } := by
  have h : (s.raise o d).clients = s.clients.map (fun c => c.offer o d) := by
    ext k hk
    have : k = 0 ∨ k = 1 ∨ k = 2 := by omega
    rcases this with rfl | rfl | rfl <;>
      simp [State.raise, allClients, State.offerTo, State.setClient, State.client]
  rw [← h]
  rfl

@[simp] theorem State.client_raise (s : State) (o : Origin) (d : NoticeDetail) (n : ClientId) :
    (s.raise o d).client n = (s.client n).offer o d := by
  simp [State.raise_eq, State.client]

@[simp] theorem State.source_raise (s : State) (o : Origin) (d : NoticeDetail) (i : SourceId) :
    (s.raise o d).source i = s.source i := by
  rw [State.raise_eq]; rfl
@[simp] theorem State.frame_raise (s : State) (o : Origin) (d : NoticeDetail) (f : FrameId) :
    (s.raise o d).frame f = s.frame f := by
  rw [State.raise_eq]; rfl
@[simp] theorem State.group_raise (s : State) (o : Origin) (d : NoticeDetail) (g : GroupId) :
    (s.raise o d).group g = s.group g := by
  rw [State.raise_eq]; rfl
@[simp] theorem State.cursor_raise (s : State) (o : Origin) (d : NoticeDetail) (c : CursorId) :
    (s.raise o d).cursor c = s.cursor c := by
  rw [State.raise_eq]; rfl
@[simp] theorem State.raise_clock (s : State) (o : Origin) (d : NoticeDetail) : (s.raise o d).clock = s.clock := by
  rw [State.raise_eq]
@[simp] theorem State.raise_memory (s : State) (o : Origin) (d : NoticeDetail) : (s.raise o d).memory = s.memory := by
  rw [State.raise_eq]

/-! ### Nothing waiting (log 12) -/

/-- From `s` to `t` nothing comes to wait for the end of an event: a source that is IDLE was so with the same binding and the
same held START, the engine is as it was or idle, a holder with a read keeps one, and an open cursor has the command it had. -/
structure State.RestKept (s t : State) : Prop where
  sources : ∀ i, (t.source i).state ≠ .idle ∨ (t.source i).state = (s.source i).state
    ∧ (t.source i).held = (s.source i).held ∧ (t.source i).binding = (s.source i).binding
  engine  : t.engine = s.engine ∨ t.engine = none
  holders : ∀ h, (t.holder h).isSome = (s.holder h).isSome
  cursors : ∀ c, (t.cursor c).openFields.isSome = true →
    (s.cursor c).openFields.isSome = true ∧ (t.cursor c).job = (s.cursor c).job

theorem State.RestKept.refl (s : State) : s.RestKept s :=
  ⟨fun _ => .inr ⟨rfl, rfl, rfl⟩, .inl rfl, fun _ => rfl, fun _ h => ⟨h, rfl⟩⟩

theorem State.RestKept.trans {s t u : State} (h : s.RestKept t) (k : t.RestKept u) : s.RestKept u where
  sources i := by
    rcases k.sources i with hu | ⟨hs, hh, hb⟩
    · exact .inl hu
    · rcases h.sources i with ht | ⟨hs', hh', hb'⟩
      · exact .inl (hs ▸ ht)
      · exact .inr ⟨hs.trans hs', hh.trans hh', hb.trans hb'⟩
  engine := by
    rcases k.engine with hu | hu
    · rw [hu]; exact h.engine
    · exact .inr hu
  holders x := (k.holders x).trans (h.holders x)
  cursors c hc := by
    obtain ⟨ht, hj⟩ := k.cursors c hc
    obtain ⟨hs, hj'⟩ := h.cursors c ht
    exact ⟨hs, hj.trans hj'⟩

theorem State.RestKept.foldl {α : Type} {g : State → α → State} (hg : ∀ (s : State) (a : α), s.RestKept (g s a)) :
    ∀ (l : List α) (s : State), s.RestKept (l.foldl g s)
  | [], s => .refl s
  | a :: l, s => (hg s a).trans (State.RestKept.foldl hg l (g s a))

/-- A change of none of the tables concerned. -/
theorem State.RestKept.of_eq {s t : State} (hs : t.sources = s.sources) (he : t.engine = s.engine)
    (hh : t.holders = s.holders) (hm : t.seamHolder = s.seamHolder) (hc : t.cursors = s.cursors) : s.RestKept t :=
  ⟨fun i => .inr (by simp [State.source, hs]), .inl he,
    fun h => by cases h <;> simp [State.holder, hh, hm], fun c h => by simpa [State.cursor, hc] using h⟩

theorem State.RestKept.setSource {s : State} {i : SourceId} {x : Source}
    (h : x.state ≠ .idle ∨ x.state = (s.source i).state ∧ x.held = (s.source i).held ∧ x.binding = (s.source i).binding) :
    s.RestKept (s.setSource i x) where
  sources j := by
    rw [State.source_setSource]
    split
    · next hj => exact hj ▸ h
    · exact .inr ⟨rfl, rfl, rfl⟩
  engine := .inl rfl
  holders h := by cases h <;> rfl
  cursors _ h := ⟨h, rfl⟩

theorem State.RestKept.atRest {s t : State} (h : s.RestKept t) (r : s.atRest) : t.atRest := by
  obtain ⟨hsource, hengine, hcursor⟩ := r
  refine ⟨fun i hheld hidle => ?_, fun he => ?_, fun c hc j hj hp => ?_⟩
  · rcases h.sources i with hne | ⟨hs, hh, hb⟩
    · exact absurd hidle hne
    · exact hb ▸ hsource i (hh ▸ hheld) (hs ▸ hidle)
  · rcases h.engine with hk | hk
    · exact (h.holders .seam).trans (hengine (hk ▸ he))
    · simp [hk] at he
  · obtain ⟨ho, hjob⟩ := h.cursors c hc
    exact (h.holders (.cursor c)).trans (hcursor c ho j (hjob ▸ hj) hp)

/-- Nothing follows an event that brings nothing to wait. -/
theorem State.RestKept.closeEvent {s t : State} (h : s.RestKept t) (r : s.atRest) : t.closeEvent = t :=
  State.closeEvent_of_atRest (h.atRest r)

theorem State.beginCommand_restKept (s : State) (n : ClientId) (tag : Nat) : s.RestKept (s.beginCommand n tag) :=
  .of_eq rfl rfl rfl rfl rfl

theorem State.answer_restKept (s : State) (n : ClientId) (st : Status) (b : List Byte) : s.RestKept (s.answer n st b) :=
  .of_eq rfl rfl rfl rfl rfl

theorem State.raise_restKept (s : State) (o : Origin) (d : NoticeDetail) : s.RestKept (s.raise o d) := by
  rw [State.raise_eq]
  exact .of_eq rfl rfl rfl rfl rfl

theorem State.setFrame_restKept (s : State) (f : FrameId) (x : Frame) : s.RestKept (s.setFrame f x) :=
  .of_eq rfl rfl rfl rfl rfl

theorem State.logError_restKept (s : State) (e : ErrorReport) : s.RestKept (s.logError e) := by
  refine State.RestKept.trans ?_ (State.raise_restKept _ _ _)
  unfold State.enqueueError
  split <;> exact .of_eq rfl rfl rfl rfl rfl

/-- A good record of a link, in a source that is not in LINK_DOWN (R22). -/
theorem State.record_of_not_linkDown {s : State} {i : SourceId} (h : (s.source i).state ≠ .linkDown) (take : State → State) :
    s.record i take = (take (s.setSource i (s.source i).goodRecord)).closeEvent := by
  simp [State.record, h]

theorem State.goodRecord_restKept (s : State) (i : SourceId) : s.RestKept (s.setSource i (s.source i).goodRecord) :=
  .setSource (.inr ⟨rfl, rfl, rfl⟩)

end Sys2Proof.Machine
end

section
/-! SUPPORT. The machine at power-on, phasing and its median, the choice of an entry, the clock while no frame lapses, PREPARE,
and a START that gets no frame. -/

namespace Sys2Proof.Machine

/-! ### Power-on -/

theorem State.reset_isPoweredOn : State.reset.isPoweredOn (fun _ => 0#8) := by
  refine ⟨rfl, fun e => ?_, fun i => ?_, rfl, rfl, fun f => ?_, fun v => ?_, fun p => ?_, fun g => ?_, rfl, rfl, rfl,
    fun h => ?_, rfl, rfl, rfl, fun c => ?_, fun n => ?_, fun n => ?_, fun n => ?_⟩
  case refine_7 => cases h <;> simp [State.holder, State.reset, State.powerOn]
  case refine_11 => fin_cases n <;> exact ⟨rfl, rfl, rfl, rfl, rfl⟩
  all_goals
    simp [State.reset, State.powerOn, State.entryAt, State.source, State.frame, State.view, State.poolRow, State.group,
      State.cursor, State.reservation, State.client, ScheduleEntry.powerOn, Source.powerOn, SourceCounters.zero,
      SourceConfig.powerOn, Source.holdLine, Reservation.powerOn, NoticeClient.powerOn]

@[simp] theorem State.reset_source (i : SourceId) : State.reset.source i = .powerOn := by
  simp [State.source, State.reset, State.powerOn]

@[simp] theorem State.reset_frame (f : FrameId) : State.reset.frame f = .freeWith 0 := by
  simp [State.frame, State.reset, State.powerOn]

@[simp] theorem State.reset_group (g : GroupId) : State.reset.group g = .undefinedWith 0 := by
  simp [State.group, State.reset, State.powerOn]

@[simp] theorem State.reset_cursor (c : CursorId) : State.reset.cursor c = { slot := .closed, job := none } := by
  simp [State.cursor, State.reset, State.powerOn]

@[simp] theorem State.reset_client (n : ClientId) : State.reset.client n = .powerOn := by
  simp [State.client, State.reset, State.powerOn]

theorem State.reset_noticesOk : State.reset.noticesOk := fun n => by
  simp [NoticeClient.powerOn, NoticeClient.noticeDue, NoticeClient.inOrder]

theorem State.reset_ringsOk : State.reset.ringsOk := fun i => by
  simp [Source.ringOk, Source.powerOn, SourceState.inStream]

theorem State.reset_framesOk : State.reset.framesOk := fun f => by
  simp [Frame.ok, Frame.freeWith, Frame.passOk, anyMember]

theorem State.reset_viewsOk : State.reset.viewsOk :=
  ⟨fun f v hv => by simp [Frame.freeWith] at hv, fun c f h => by simp [Cursor.onPrevious, Cursor.openFields] at h⟩

theorem State.reset_sectionsOk : State.reset.sectionsOk := by
  refine ⟨fun f g k => ?_, fun f _ => ?_, fun g _ => ?_⟩ <;>
    simp [Frame.freeWith, State.sectionFrame, Group.undefinedWith]

theorem State.reset_atRest : State.reset.atRest :=
  ⟨fun i h => by simp [Source.powerOn] at h, fun h => by simp [State.reset, State.powerOn] at h,
    fun c h => by simp [Cursor.openFields] at h⟩

theorem State.reset_jobsOk : State.reset.jobsOk := fun c h => by simp at h

/-- Settles O3: each table at power-on is its power-on record throughout. -/
theorem resetStateIsPowerOn : Obligations.ResetStateIsPowerOn :=
  ⟨State.reset_isPoweredOn, rfl, rfl, State.reset_memoryOk, State.reset_noticesOk, ⟨Nat.zero_le _, Nat.zero_le _, Nat.zero_le _⟩,
    State.reset_ringsOk, State.reset_framesOk, State.reset_viewsOk, State.reset_sectionsOk, State.reset_atRest,
    State.reset_jobsOk, fun i => by simp [Source.powerOn], fun _ => rfl, fun _ => rfl⟩

/-! ### The median of phasing (R27) -/

theorem insertAscending_perm (x : Nat) : ∀ l, (insertAscending x l).Perm (x :: l)
  | [] => .refl _
  | y :: ys => by
    unfold insertAscending
    split
    · exact .refl _
    · exact ((insertAscending_perm x ys).cons y).trans (.swap x y ys)

theorem insertAscending_pairwise (x : Nat) {l : List Nat} (h : l.Pairwise (· ≤ ·)) :
    (insertAscending x l).Pairwise (· ≤ ·) := by
  induction l with
  | nil => exact List.pairwise_singleton _ _
  | cons y ys ih =>
    obtain ⟨hy, hys⟩ := List.pairwise_cons.mp h
    unfold insertAscending
    split
    · next hxy =>
      refine List.pairwise_cons.mpr ⟨fun z hz => ?_, h⟩
      rcases List.mem_cons.mp hz with rfl | hz
      · exact hxy
      · exact hxy.trans (hy z hz)
    · next hxy =>
      refine List.pairwise_cons.mpr ⟨fun z hz => ?_, ih hys⟩
      rcases List.mem_cons.mp ((insertAscending_perm x ys).mem_iff.mp hz) with rfl | hz
      · omega
      · exact hy z hz

theorem sortAscending_perm : ∀ l, (sortAscending l).Perm l
  | [] => .refl _
  | x :: xs => (insertAscending_perm x _).trans ((sortAscending_perm xs).cons x)

theorem sortAscending_pairwise : ∀ l, (sortAscending l).Pairwise (· ≤ ·)
  | [] => .nil
  | x :: xs => insertAscending_pairwise x (sortAscending_pairwise xs)

/-- In an ascending list fewer than `k + 1` members lie below its member `k`, and more than `k` do not lie above it. -/
theorem countP_of_pairwise {l : List Nat} (h : l.Pairwise (· ≤ ·)) {k : Nat} (hk : k < l.length) :
    l.countP (fun c => decide (c < l[k])) ≤ k ∧ k + 1 ≤ l.countP (fun c => decide (c ≤ l[k])) := by
  induction l generalizing k with
  | nil => simp at hk
  | cons x xs ih =>
    obtain ⟨hx, hxs⟩ := List.pairwise_cons.mp h
    cases k with
    | zero =>
      have hnone : xs.countP (fun c => decide (c < x)) = 0 :=
        List.countP_eq_zero.mpr fun c hc => by simpa using hx c hc
      simp [hnone]
    | succ k =>
      have hk' : k < xs.length := by simpa using hk
      obtain ⟨hlt, hle⟩ := ih hxs hk'
      have hxk : x ≤ xs[k] := hx _ (List.getElem_mem _)
      simp only [List.getElem_cons_succ, List.countP_cons, hxk, decide_true, if_true]
      constructor
      · split <;> omega
      · omega

/-- The median's place in the sorted copy, counted from 0. -/
theorem medianColumn_eq {l : List Nat} (h : l ≠ []) :
    ∃ hk : (l.length + 1) / 2 - 1 < (sortAscending l).length,
      medianColumn l = (sortAscending l)[(l.length + 1) / 2 - 1] := by
  have hpos : 0 < l.length := List.length_pos_iff.mpr h
  have hlen : (sortAscending l).length = l.length := (sortAscending_perm l).length_eq
  have hplace : (if l.length % 2 = 1 then (l.length + 1) / 2 else l.length / 2) = (l.length + 1) / 2 := by
    split <;> omega
  refine ⟨by omega, ?_⟩
  unfold medianColumn
  dsimp only
  rw [hplace, List.getD_eq_getElem?_getD, List.getElem?_eq_getElem (by omega)]
  rfl

theorem medianColumn_spec {l : List Nat} (h : l ≠ []) :
    medianColumn l ∈ l ∧ l.countP (fun c => decide (c < medianColumn l)) < (l.length + 1) / 2
      ∧ (l.length + 1) / 2 ≤ l.countP (fun c => decide (c ≤ medianColumn l)) := by
  obtain ⟨hk, hmedian⟩ := medianColumn_eq h
  have hpos : 0 < l.length := List.length_pos_iff.mpr h
  obtain ⟨hlt, hle⟩ := countP_of_pairwise (sortAscending_pairwise l) hk
  rw [← hmedian, (sortAscending_perm l).countP_eq] at hlt hle
  refine ⟨(sortAscending_perm l).mem_iff.mp (hmedian ▸ List.getElem_mem hk), by omega, by omega⟩

/-! ### PHASE (R22, R27, R42) -/

/-- What a PHASE leaves outside LINK_DOWN, where it brings no source to IDLE. -/
theorem exec_phase {s : State} (r : s.atRest) {i : SourceId} (h : (s.source i).state ≠ .linkDown) (sequence pulse : Nat)
    (hx : ((s.source i).goodRecord.takePhase pulse).state ≠ .idle
      ∨ (s.source i).goodRecord.takePhase pulse = (s.source i).goodRecord) :
    exec (.phase i sequence pulse) s = .next (s.setSource i ((s.source i).goodRecord.takePhase pulse)) := by
  show execPhase i sequence pulse s = _
  have hkept : s.RestKept (s.setSource i ((s.source i).goodRecord.takePhase pulse)) := by
    rcases hx with hx | hx
    · exact .setSource (.inl hx)
    · rw [hx]; exact s.goodRecord_restKept i
  rw [execPhase, State.record_of_not_linkDown h]
  simp only [State.modifySource_eq, State.setSource_setSource, State.source_setSource_self]
  rw [hkept.closeEvent r]

/-- A PHASE in a state that neither takes nor counts it is discarded (R42). -/
theorem Source.takePhase_of_not_phasing {x : Source} (hp : x.state ≠ .phasing) (hd : x.state ≠ .discarding) (pulse : Nat) :
    x.takePhase pulse = x := by
  cases hs : x.state <;> simp_all [Source.takePhase]

/-- A PHASE in PHASING: dropped beyond the width, kept, or kept as the last one of phasing (R27). -/
theorem Source.takePhase_of_phasing {x : Source} {b : StreamBinding} (hs : x.state = .phasing) (hb : x.binding = some b)
    (pulse : Nat) :
    x.takePhase pulse =
      if drumWidth b.geometry.drum ≤ pulse then x
      else if x.config.phasingCount ≤ x.positions.length + 1 then
        { x with positions := x.positions ++ [pulse] }.endPhasing
      else { x with positions := x.positions ++ [pulse] } := by
  simp [Source.takePhase, hs, hb]

theorem Source.takePhase_of_discarding {x : Source} (h : x.state = .discarding) (pulse : Nat) :
    x.takePhase pulse = x.countPhase := by
  simp [Source.takePhase, h]

/-- Settles O22: the source's state says what becomes of the PHASE, and the median is found in the sorted copy. -/
theorem phasingTakesTheMedian : Obligations.PhasingTakesTheMedian := by
  refine ⟨fun i sequence pulse b s r => ?_, fun i sequence pulse s r hp hd hl => ?_, fun i sequence pulse s r => ?_,
    fun l h => medianColumn_spec h⟩
  · intro x hs hb
    have htake := Source.takePhase_of_phasing (x := x.goodRecord) hs hb pulse
    have hl : (s.source i).state ≠ .linkDown := by rw [show (s.source i).state = .phasing from hs]; decide
    have hphasing : x.goodRecord.state ≠ .idle := by rw [show x.goodRecord.state = .phasing from hs]; decide
    refine ⟨fun hw => ?_, fun hw hc => ?_, fun hw hc => ?_⟩
    · rw [if_pos hw] at htake
      rw [exec_phase r hl sequence pulse (.inr htake), htake]
      rfl
    · rw [if_neg (not_le.mpr hw),
        if_neg (show ¬ x.goodRecord.config.phasingCount ≤ x.goodRecord.positions.length + 1 from not_le.mpr hc)] at htake
      rw [exec_phase r hl sequence pulse (.inl (by rw [htake]; exact hphasing)), htake]
      rfl
    · rw [if_neg (not_le.mpr hw), if_pos (show x.goodRecord.config.phasingCount ≤ x.goodRecord.positions.length + 1 from hc)] at htake
      rw [exec_phase r hl sequence pulse (.inl (by rw [htake]; simp [Source.endPhasing])), htake]
      rfl
  · have htake := Source.takePhase_of_not_phasing (x := (s.source i).goodRecord) hp hd pulse
    rw [exec_phase r hl sequence pulse (.inr htake), htake]
    rfl
  · intro x hs
    have htake := Source.takePhase_of_discarding (x := x.goodRecord) hs pulse
    have hl : (s.source i).state ≠ .linkDown := by rw [show (s.source i).state = .discarding from hs]; decide
    have hidle : x.goodRecord.countPhase.state ≠ .idle := by
      rw [show x.goodRecord.countPhase.state = .discarding from hs]; decide
    rw [exec_phase r hl sequence pulse (.inl (htake ▸ hidle)), htake]
    rfl

end Sys2Proof.Machine
end

section
/-! SUPPORT. The entry a START chooses (R5, R6), and the clock while no frame lapses (R1, R2, R20). -/

namespace Sys2Proof.Machine

/-! ### The chosen entry (R5, R6) -/

theorem minuteDistance_eq (m n : Nat) :
    minuteDistance m n = min ((m : Int) - n).natAbs (1440 - ((m : Int) - n).natAbs) := by
  have h : (if m < n then n - m else m - n) = ((m : Int) - n).natAbs := by split <;> omega
  unfold minuteDistance
  dsimp only
  rw [h]
  split <;> omega

/-- The four tests of R5 on an ACTIVE entry, with its distance. -/
theorem State.candidateDistance_eq_some_iff (s : State) (x : StartRecord) (e : EntryId) (k : Nat) :
    s.candidateDistance x e = some k ↔ ∃ d, (s.entryAt e).definition = some (.active, d) ∧ x.frequency ∈ d.frequencies
      ∧ x.drum = d.drum ∧ x.rate = d.rate ∧ d.days[weekdayIndex s.clock.weekday] = true
      ∧ minuteDistance (s.clock.second / 60) d.startMinute ≤ d.tolerance
      ∧ minuteDistance (s.clock.second / 60) d.startMinute = k := by
  unfold State.candidateDistance
  cases h : (s.entryAt e).definition with
  | none => simp
  | some p =>
    obtain ⟨mode, d⟩ := p
    cases mode
    · simp [DayClock.minute, and_assoc]
    · simp

/-- The answer is nearest among the entries listed: a candidate at its distance, none of the list nearer, and none as near
with a lower index; or there is no candidate in the list. -/
def NearestIn (distance : EntryId → Option Nat) (l : List EntryId) : Option (EntryId × Nat) → Prop
  | none => ∀ e ∈ l, distance e = none
  | some (e, k) => distance e = some k ∧ ∀ e' ∈ l, ∀ k', distance e' = some k' → k < k' ∨ k = k' ∧ e ≤ e'

/-- A later entry keeps the answer nearest. -/
theorem NearestIn.snoc {distance : EntryId → Option Nat} {l : List EntryId} {a : EntryId} (hl : ∀ e ∈ l, e < a) :
    ∀ best, NearestIn distance l best → (∀ e k, best = some (e, k) → e ∈ l) →
      NearestIn distance (l ++ [a]) (nearerEntry best a (distance a))
        ∧ ∀ e k, nearerEntry best a (distance a) = some (e, k) → e ∈ l ++ [a] := by
  intro best h hmem
  cases ha : distance a with
  | none =>
    refine ⟨?_, fun e k he => List.mem_append_left _ (hmem e k he)⟩
    cases best with
    | none => simpa [nearerEntry, NearestIn, or_imp, forall_and, ha] using h
    | some p =>
      obtain ⟨hp, hn⟩ := h
      refine ⟨hp, fun e' he' k' hk' => ?_⟩
      rcases List.mem_append.mp he' with he' | he'
      · exact hn e' he' k' hk'
      · rw [List.mem_singleton.mp he', ha] at hk'
        cases hk'
  | some k =>
    cases best with
    | none =>
      refine ⟨⟨ha, fun e' he' k' hk' => ?_⟩, fun e k he => by simp_all [nearerEntry]⟩
      rcases List.mem_append.mp he' with he' | he'
      · rw [h e' he'] at hk'
        cases hk'
      · rw [List.mem_singleton.mp he', ha] at hk'
        rw [List.mem_singleton.mp he']
        cases hk'
        exact .inr ⟨rfl, le_refl _⟩
    | some p =>
      obtain ⟨e₀, k₀⟩ := p
      obtain ⟨hp, hn⟩ := h
      have he₀ : e₀ ∈ l := hmem e₀ k₀ rfl
      by_cases hk : k < k₀
      · simp only [nearerEntry, hk, if_true]
        refine ⟨⟨ha, fun e' he' k' hk' => ?_⟩, fun e j he => by simp_all⟩
        rcases List.mem_append.mp he' with he' | he'
        · rcases hn e' he' k' hk' with h | h <;> exact .inl (by omega)
        · rw [List.mem_singleton.mp he', ha] at hk'
          rw [List.mem_singleton.mp he']
          cases hk'
          exact .inr ⟨rfl, le_refl _⟩
      · simp only [nearerEntry, hk, if_false]
        refine ⟨⟨hp, fun e' he' k' hk' => ?_⟩, fun e j he => by simp_all⟩
        rcases List.mem_append.mp he' with he' | he'
        · exact hn e' he' k' hk'
        · rw [List.mem_singleton.mp he', ha] at hk'
          rw [List.mem_singleton.mp he']
          cases hk'
          have := hl e₀ he₀
          rcases Nat.lt_or_eq_of_le (not_lt.mp hk) with h | h
          · exact .inl h
          · exact .inr ⟨h, this.le⟩

theorem nearestIn_foldl (distance : EntryId → Option Nat) (l : List EntryId) (h : l.Pairwise (· < ·)) :
    NearestIn distance l (l.foldl (fun best e => nearerEntry best e (distance e)) none)
      ∧ ∀ e k, l.foldl (fun best e => nearerEntry best e (distance e)) none = some (e, k) → e ∈ l := by
  induction l using List.reverseRecOn with
  | nil => simp [NearestIn]
  | append_singleton l a ih =>
    obtain ⟨hpair, -, hlt⟩ := List.pairwise_append.mp h
    obtain ⟨hnear, hmem⟩ := ih hpair
    rw [List.foldl_append]
    exact NearestIn.snoc (fun e he => hlt e he a (by simp)) _ hnear hmem

/-- What the choice of R6 finds among all entries. -/
theorem State.nearestIn_all (s : State) (x : StartRecord) :
    NearestIn (s.candidateDistance x) allEntries
      (allEntries.foldl (fun best e => nearerEntry best e (s.candidateDistance x e)) none) :=
  (nearestIn_foldl (s.candidateDistance x) allEntries (List.pairwise_lt_finRange 64)).1

theorem mem_allEntries (e : EntryId) : e ∈ allEntries := List.mem_finRange e

/-- Settles O16: the fold over the entries keeps the nearest candidate so far, the lower index on a tie. -/
theorem chosenEntryIsTheNearestCandidate : Obligations.ChosenEntryIsTheNearestCandidate := by
  refine ⟨minuteDistance_eq, fun s x => ?_⟩
  have hnear := s.nearestIn_all x
  unfold State.chosenEntry
  cases hbest : allEntries.foldl (fun best e => nearerEntry best e (s.candidateDistance x e)) none with
  | none =>
    rw [hbest] at hnear
    refine ⟨fun e d h => (by cases h), fun _ e d hd hf hdrum hrate hday => ?_⟩
    have hnone := hnear e (mem_allEntries e)
    by_contra hle
    have hsome := (s.candidateDistance_eq_some_iff x e _).mpr
      ⟨d, hd, hf, hdrum, hrate, hday, not_lt.mp hle, rfl⟩
    rw [hsome] at hnone
    cases hnone
  | some p =>
    obtain ⟨e, k⟩ := p
    rw [hbest] at hnear
    obtain ⟨hdist, hmin⟩ := hnear
    obtain ⟨d, hd, hf, hdrum, hrate, hday, htol, rfl⟩ := (s.candidateDistance_eq_some_iff x e k).mp hdist
    refine ⟨fun e₁ d₁ h => ?_, fun h => by simp [hd] at h⟩
    have h : e = e₁ ∧ d = d₁ := by simpa [hd] using h
    obtain ⟨rfl, rfl⟩ := h
    refine ⟨hd, hf, hdrum, hrate, hday, htol, fun e' d' hd' hf' hdrum' hrate' hday' htol' => ?_⟩
    exact hmin e' (mem_allEntries e') _ ((s.candidateDistance_eq_some_iff x e' _).mpr
      ⟨d', hd', hf', hdrum', hrate', hday', htol', rfl⟩)

/-! ### The minute check (R20) -/

/-- The distance forward from one number to another, counted round `M`, lies from 1 to `K`. -/
theorem forwardDistance_iff {M K : Nat} (h : K < M) (ended now : Nat) :
    (1 ≤ (now + M - ended % M) % M ∧ (now + M - ended % M) % M ≤ K)
      ↔ ∃ k, 1 ≤ k ∧ k ≤ K ∧ (ended + k) % M = now % M := by
  have hM : 0 < M := by omega
  have hended : ended % M < M := Nat.mod_lt _ hM
  have hreach : (ended + (now + M - ended % M)) % M = now % M := by
    have hsplit : ended + (now + M - ended % M) = now + M * (1 + ended / M) := by
      have := Nat.div_add_mod ended M
      rw [Nat.mul_add]
      omega
    rw [hsplit, Nat.add_mul_mod_self_left]
  constructor
  · rintro ⟨h1, hK⟩
    exact ⟨_, h1, hK, by rw [Nat.add_mod_mod, hreach]⟩
  · rintro ⟨k, h1, hK, hk⟩
    have hcancel : (now + M - ended % M) % M = k := by
      have hmod : ended + (now + M - ended % M) ≡ ended + k [MOD M] := hreach.trans hk.symm
      have hk' : (now + M - ended % M) % M = k % M := Nat.ModEq.add_left_cancel' ended hmod
      rw [hk', Nat.mod_eq_of_lt (by omega)]
    omega

/-- The window of R20 has passed: the distance back to its end, counted round the 65,536 days, lies from 1 minute to 32,767
days. -/
theorem State.windowPassed_iff (s : State) (f : FrameId) : s.windowPassed (s.frame f) = true ↔ s.windowOver f := by
  unfold State.windowPassed State.windowOver
  cases he : (s.frame f).entry with
  | none => simp
  | some e =>
    cases hd : (s.entryAt e).definition with
    | none => simp [hd]
    | some p =>
      obtain ⟨m, d⟩ := p
      have hforward := forwardDistance_iff (M := minutesOfDays) (K := 32767 * 1440)
        (by unfold minutesOfDays; omega) ((((s.frame f).day + d.shift) % 65536) * 1440 + d.startMinute + d.tolerance)
        (s.clock.day * 1440 + s.clock.minute)
      dsimp only
      rw [hd]
      refine decide_eq_true_iff.trans (hforward.trans ⟨?_, ?_⟩)
      · rintro ⟨k, h1, h2, hk⟩
        exact ⟨e, rfl, .inr ⟨m, d, k, hd, h1, h2, hk⟩⟩
      · rintro ⟨e', he', hnone | ⟨m', d', k, hd', h1, h2, hk⟩⟩
        · cases he'
          rw [hd] at hnone
          cases hnone
        · cases he'
          rw [hd] at hd'
          cases hd'
          exact ⟨k, h1, h2, hk⟩

theorem State.checkLapse_of_not_lapses {s : State} {f : FrameId} (h : ¬ s.lapses f) : s.checkLapse f = s := by
  have : ¬ ((s.frame f).state = .expected ∧ (s.frame f).pins.isEmpty = true ∧ s.windowPassed (s.frame f) = true) := by
    rwa [s.windowPassed_iff f]
  simp [State.checkLapse, this]

theorem State.checkLapse_of_lapses {s : State} {f : FrameId} (h : s.lapses f) :
    s.checkLapse f = (s.freeFrame f).raise (.frame f) (.expectedLapsed (s.frame f).entry) := by
  have : (s.frame f).state = .expected ∧ (s.frame f).pins.isEmpty = true ∧ s.windowPassed (s.frame f) = true := by
    rwa [s.windowPassed_iff f]
  simp [State.checkLapse, this]

/-- Where no frame lapses the check changes nothing. -/
theorem State.minuteCheck_of_no_lapse {s : State} (h : ∀ f, ¬ s.lapses f) : s.minuteCheck = s := by
  have fold : ∀ l : List FrameId, l.foldl (fun s f => s.checkLapse f) s = s := fun l => by
    induction l with
    | nil => rfl
    | cons f l ih => rw [List.foldl_cons, State.checkLapse_of_not_lapses (h f), ih]
  simp [State.minuteCheck, fold]

/-! ### CLOCK_SECOND, SET_CLOCK and GET_CLOCK (R1, R2) -/

/-- The clock a second later than a SET one. -/
theorem DayClock.tick_before_midnight {c : DayClock} (h : c.second < 86399) :
    c.tick = { c with second := c.second + 1 } := by
  simp [DayClock.tick, show c.second + 1 < 86400 by omega]

theorem DayClock.tick_at_midnight {c : DayClock} (hset : c.isSet = true) (h : c.second = 86399) :
    c.tick = { isSet := true, second := 0, day := (c.day + 1) % 65536, weekday := weekdayAfter c.weekday } := by
  simp [DayClock.tick, h, hset, next16]

/-- A second that enters a new minute. -/
theorem exec_clockSecond_of_minute {s : State} (hset : s.clock.isSet = true) (h : s.clock.tick.second % 60 = 0) :
    exec .clockSecond s = .next { s with clock := s.clock.tick }.minuteCheck.closeEvent := by
  show execClockSecond s = _
  simp [execClockSecond, hset, h]

theorem State.setClockField_restKept (s : State) (c : DayClock) : s.RestKept { s with clock := c } :=
  .of_eq rfl rfl rfl rfl rfl

/-- Settles O13: the clock ticks, and at a new minute the check and the end of the event find nothing. -/
theorem clockSecondAdvancesTheClock : Obligations.ClockSecondAdvancesTheClock := by
  have quiet : ∀ s t : State, s.clock.isSet = true → s.clock.tick.second % 60 = 0 → s.atRest →
      t = { s with clock := s.clock.tick } → (∀ f, ¬ t.lapses f) → exec .clockSecond s = .next t := by
    rintro s t hset hminute r rfl hlapse
    rw [exec_clockSecond_of_minute hset hminute, State.minuteCheck_of_no_lapse hlapse,
      (s.setClockField_restKept _).closeEvent r]
  refine ⟨fun s hset => ?_, fun s hset hminute hlt => ?_, fun s t hset hminute hlt r ht hlapse => ?_,
    fun s t hset hlast r ht hlapse => ?_⟩
  · show execClockSecond s = _
    simp [execClockSecond, hset]
  · show execClockSecond s = _
    simp [execClockSecond, hset, DayClock.tick_before_midnight hlt, hminute]
  · have htick := DayClock.tick_before_midnight hlt
    exact quiet s t hset (by rw [htick]; exact hminute) r (by rw [htick]; exact ht) hlapse
  · have htick := DayClock.tick_at_midnight hset hlast
    exact quiet s t hset (by rw [htick]; rfl) r (by rw [htick]; exact ht) hlapse

/-- A port and a clock are no part of what the check tests. -/
theorem State.lapses_beginCommand (s : State) (n : ClientId) (tag : Nat) (f : FrameId) :
    (s.beginCommand n tag).lapses f ↔ s.lapses f := Iff.rfl

/-- SET_CLOCK with values in range, on a port that accepts it. -/
theorem exec_setClock {s : State} {n : ClientId} (h : s.accepts n [.system]) (tag : Nat) {second day code : Nat} {w : Weekday}
    (hsec : second ≤ 86399) (hw : weekdayOfCode code = some w) :
    exec (.setClock n tag second day code) s = .next
      ((({ s with clock := { isSet := true, second := second, day := day, weekday := w } } : State).beginCommand n
        tag).minuteCheck.answer n .ok []).closeEvent := by
  show execSetClock n tag second day code s = _
  rw [execSetClock, State.request_of_accepts h]
  simp only [hw, if_neg (not_lt.mpr hsec)]
  rfl

theorem exec_getClock {s : State} {n : ClientId} (h : s.accepts n [.read]) (tag : Nat) :
    exec (.getClock n tag) s = .next (if s.clock.isSet then s.withAnswer n tag .ok
      (beBytes 3 s.clock.second ++ beBytes 2 s.clock.day ++ [byteOf (weekdayCode s.clock.weekday)])
      else s.withAnswer n tag .clockUnset []) := by
  show execGetClock n tag s = _
  rw [execGetClock, State.request_of_accepts h]
  rfl

theorem weekdayOfCode_eq_none {code : Nat} (h : 6 < code) : weekdayOfCode code = none := by
  unfold weekdayOfCode
  split
  case h_8 => rfl
  all_goals omega

/-- Settles O12: the check and the end of the event find nothing, so that the clock and the answer are all that change. -/
theorem setClockLoadsAndGetClockReports : Obligations.SetClockLoadsAndGetClockReports := by
  refine ⟨fun n tag second day code w s t hacc r hsec hw ht hlapse => ?_, fun n tag second day code s hacc hbad => ?_,
    fun n tag s hacc hset => ?_, fun n tag s hacc hset => ?_⟩
  · subst ht
    rw [exec_setClock hacc tag hsec hw,
      State.minuteCheck_of_no_lapse (fun f => (State.lapses_beginCommand _ n tag f).not.mpr (hlapse f))]
    have hkept := ((s.setClockField_restKept { isSet := true, second := second, day := day, weekday := w }).trans
      (State.beginCommand_restKept _ n tag)).trans (State.answer_restKept _ n .ok [])
    rw [hkept.closeEvent r]
    rfl
  · show execSetClock n tag second day code s = _
    rw [execSetClock, State.request_of_accepts hacc]
    cases hw : weekdayOfCode code with
    | none => rfl
    | some w =>
      have hsec : 86399 < second := hbad.resolve_right fun h => by simp [weekdayOfCode_eq_none h] at hw
      simp only [if_pos hsec]
      rfl
  · rw [exec_getClock hacc, if_neg (by simp [hset])]
  · rw [exec_getClock hacc, if_pos hset]

end Sys2Proof.Machine
end

section
/-! SUPPORT. The slots and keys a binding looks for (R7, R14, R15), PREPARE (R19), and a START that gets no frame (R8, R13, R16). -/

namespace Sys2Proof.Machine

/-! ### The first frame that a test finds -/

theorem mem_allFrames (f : FrameId) : f ∈ allFrames := List.mem_finRange f

/-- The lowest index that passes a test. -/
theorem find?_finRange_eq_some_iff {n : Nat} {p : Fin n → Bool} {f : Fin n} :
    (List.finRange n).find? p = some f ↔ p f = true ∧ ∀ g, g < f → p g = false := by
  rw [List.find?_eq_some_iff_getElem]
  constructor
  · rintro ⟨hp, k, hk, rfl, hlt⟩
    refine ⟨hp, fun g hg => ?_⟩
    have hgk : g.val < k := by simpa [Fin.lt_def] using hg
    simpa using hlt g.val hgk
  · rintro ⟨hp, hlt⟩
    refine ⟨hp, f.val, by simp, by simp, fun j hj => ?_⟩
    have := hlt ⟨j, by omega⟩ (by simpa [Fin.lt_def] using hj)
    simpa using this

theorem find?_allFrames_eq_some_iff {p : FrameId → Bool} {f : FrameId} :
    allFrames.find? p = some f ↔ p f = true ∧ ∀ g, g < f → p g = false :=
  find?_finRange_eq_some_iff

theorem find?_allFrames_eq_none_iff {p : FrameId → Bool} : allFrames.find? p = none ↔ ∀ f, p f = false := by
  simp [List.find?_eq_none, mem_allFrames]

/-- The lowest FREE slot (R14). -/
theorem State.freeSlot_eq_some_iff (s : State) (f : FrameId) :
    s.freeSlot = some f ↔ (s.frame f).state = .free ∧ ∀ g, g < f → (s.frame g).state ≠ .free := by
  simp [State.freeSlot, find?_allFrames_eq_some_iff]

theorem State.freeSlot_eq_none_iff (s : State) : s.freeSlot = none ↔ ∀ f, (s.frame f).state ≠ .free := by
  rw [State.freeSlot, find?_allFrames_eq_none_iff]
  simp

/-- The frame that holds a broadcast key, the lowest where there is more than one (R7). -/
theorem State.keyHolder_eq_some_iff (s : State) (root : EntryId) (day : Nat) (f : FrameId) :
    s.keyHolder root day = some f ↔
      ((s.frame f).state ≠ .free ∧ (s.frame f).root = some root ∧ (s.frame f).day = day)
        ∧ ∀ g, g < f → ¬ ((s.frame g).state ≠ .free ∧ (s.frame g).root = some root ∧ (s.frame g).day = day) := by
  unfold State.keyHolder
  rw [find?_allFrames_eq_some_iff]
  simp only [← Bool.not_eq_true, Bool.and_eq_true, bne_iff_ne, beq_iff_eq, and_assoc]

theorem State.keyHolder_eq_none_iff (s : State) (root : EntryId) (day : Nat) :
    s.keyHolder root day = none ↔
      ∀ f, ¬ ((s.frame f).state ≠ .free ∧ (s.frame f).root = some root ∧ (s.frame f).day = day) := by
  unfold State.keyHolder
  rw [find?_allFrames_eq_none_iff]
  simp only [← Bool.not_eq_true, Bool.and_eq_true, bne_iff_ne, beq_iff_eq, and_assoc]

/-- No frame is evicted where none may be (R15). -/
theorem State.evictionChoice_eq_none {s : State} (h : ∀ f, (s.frame f).isEvictable = false) : s.evictionChoice = none := by
  have : allFrames.filter (fun f => (s.frame f).isEvictable) = [] := List.filter_eq_nil_iff.mpr fun f _ => by simp [h f]
  simp [State.evictionChoice, this]

/-! ### PREPARE (R19) -/

/-- What PREPARE does once its port has accepted it. -/
def State.prepared (s : State) (n : ClientId) (entry : Nat) (dayGiven : Bool) (day : Nat) : State :=
  match indexOf 64 entry with
  | none => s.answer n .badRequest []
  | some e =>
    if dayGiven = true ∧ 65535 < day then s.answer n .badRequest []
    else
      match (s.entryAt e).definition with
      | none => s.answer n .noSuch []
      | some (_, d) =>
        if dayGiven then s.prepareFor n e d day
        else if s.clock.isSet then s.prepareFor n e d (s.broadcastDay d)
        else s.answer n .clockUnset []

/-- PREPARE reads its day-given byte as a yes or a no (log 7). -/
theorem exec_prepare (s : State) (n : ClientId) (tag e k asked : Nat) :
    exec (.prepare n tag e k asked) s
      = .next (s.request n tag [.frameEdit] (fun s => s.prepared n e (yesOfByte k) asked)) := rfl

theorem exec_prepare_of_accepts {s : State} {n : ClientId} (h : s.accepts n [.frameEdit]) (tag e k asked : Nat) :
    exec (.prepare n tag e k asked) s = .next ((s.beginCommand n tag).prepared n e (yesOfByte k) asked) := by
  rw [exec_prepare, State.request_of_accepts h]

@[simp] theorem yesOfByte_zero : yesOfByte 0 = false := rfl
@[simp] theorem yesOfByte_one : yesOfByte 1 = true := rfl

/-- PREPARE of a defined entry, for a day given or for today's broadcast. -/
theorem exec_prepare_of_definition {s : State} {n : ClientId} {e : EntryId} {m : EntryMode} {d : EntryFields}
    {k asked day : Nat} (h : s.accepts n [.frameEdit]) (tag : Nat) (hd : (s.entryAt e).definition = some (m, d))
    (hday : k = 1 ∧ asked ≤ 65535 ∧ day = asked
      ∨ k = 0 ∧ s.clock.isSet = true
        ∧ day = (s.clock.day + 65536 - if d.repeatOf.isSome then d.dayShift else 0) % 65536) :
    exec (.prepare n tag e.val k asked) s = .next ((s.beginCommand n tag).prepareFor n e d day) := by
  have hd' : ((s.beginCommand n tag).entryAt e).definition = some (m, d) := hd
  rw [exec_prepare_of_accepts h, State.prepared, indexOf_val]
  rcases hday with ⟨rfl, hasked, rfl⟩ | ⟨rfl, hset, rfl⟩
  · simp [hd', not_lt.mpr hasked]
  · have hset' : (s.beginCommand n tag).clock.isSet = true := hset
    simp only [yesOfByte_zero, Bool.false_eq_true, false_and, if_false, hd', hset', if_true]
    rfl

/-- A row of a map built in a slot is in flight exactly where an issued operation is outstanding for it (R66). -/
theorem State.inheritedFlight_ne_no_iff (s : State) (f : FrameId) (r : Nat) :
    s.inheritedFlight f r ≠ .no ↔ ∃ o ∈ s.writeQueue, o.slot = f ∧ o.row = r ∧ o.issued.isSome = true := by
  unfold State.inheritedFlight
  split
  · next h =>
    rw [List.find?_eq_none] at h
    simpa [and_assoc] using h
  · next o h =>
    have hmem := List.mem_of_find?_eq_some h
    have htest := List.find?_some h
    simp only [Bool.and_eq_true, beq_iff_eq, and_assoc] at htest
    have hne : (match o.kind with | .rowWrite _ => InFlight.write none | .rowCopy _ _ => .copy) ≠ .no := by
      cases o.kind <;> simp
    exact ⟨fun _ => ⟨o, hmem, htest⟩, fun _ => hne⟩

/-- A map built in a slot: every entry EMPTY, in flight where an issued operation is outstanding (R49, R66). -/
theorem State.freshMap_spec (s : State) (f : FrameId) (rows : Nat) :
    (s.freshMap f rows).length = rows
      ∧ ∀ r e, (s.freshMap f rows)[r]? = some e → e.state = .empty ∧ e.preserved = none ∧ e.lost = false
        ∧ (e.inFlight ≠ .no ↔ ∃ o ∈ s.writeQueue, o.slot = f ∧ o.row = r ∧ o.issued.isSome = true) := by
  refine ⟨by simp [State.freshMap], fun r e h => ?_⟩
  obtain ⟨k, hk, rfl⟩ : ∃ k, (List.range rows)[r]? = some k ∧ { RowEntry.fresh with inFlight := s.inheritedFlight f k } = e := by
    simpa [State.freshMap] using h
  obtain ⟨-, rfl⟩ : r < rows ∧ r = k := by simpa [List.getElem?_eq_some_iff] using hk
  exact ⟨rfl, rfl, rfl, s.inheritedFlight_ne_no_iff f r⟩

/-- Settles O15: the key's holder, a FREE slot, or neither decides the answer. -/
theorem prepareSetsUpAnExpectedFrame : Obligations.PrepareSetsUpAnExpectedFrame := by
  refine ⟨fun n tag k asked day e m d s hacc hd hday => ⟨fun f hfree hroot hfday hfirst => ?_, fun hnone => ⟨fun hfull => ?_,
    fun f hfree hfirst => ?_⟩⟩, fun n tag asked k s hacc hk => ⟨fun e he => ?_, fun e h1 hasked => ?_, fun e hasked hd => ?_,
    fun e h0 hd hset => ?_⟩, fun n tag e k asked s hk => ?_, fun s f rows => s.freshMap_spec f rows⟩
  · have hkey := ((s.beginCommand n tag).keyHolder_eq_some_iff (d.rootOf e) day f).mpr ⟨⟨hfree, hroot, hfday⟩, hfirst⟩
    rw [exec_prepare_of_definition hacc tag hd hday, State.prepareFor]
    simp only [hkey]
    rfl
  · have hkey := ((s.beginCommand n tag).keyHolder_eq_none_iff (d.rootOf e) day).mpr hnone
    rw [exec_prepare_of_definition hacc tag hd hday, State.prepareFor]
    simp only [hkey, ((s.beginCommand n tag).freeSlot_eq_none_iff).mpr hfull]
    rfl
  · have hkey := ((s.beginCommand n tag).keyHolder_eq_none_iff (d.rootOf e) day).mpr hnone
    rw [exec_prepare_of_definition hacc tag hd hday, State.prepareFor]
    simp only [hkey, ((s.beginCommand n tag).freeSlot_eq_some_iff f).mpr ⟨hfree, hfirst⟩]
    rfl
  · rw [exec_prepare_of_accepts hacc, State.prepared, indexOf_of_le he]
    rfl
  · subst h1
    rw [exec_prepare_of_accepts hacc, State.prepared, indexOf_val]
    simp [hasked, State.withAnswer]
  · have hd' : ((s.beginCommand n tag).entryAt e).definition = none := hd
    rw [exec_prepare_of_accepts hacc, State.prepared, indexOf_val]
    simp [not_lt.mpr hasked, hd', State.withAnswer]
  · obtain ⟨⟨m, d⟩, hd'⟩ := Option.isSome_iff_exists.mp hd
    have hd' : ((s.beginCommand n tag).entryAt e).definition = some (m, d) := hd'
    have hset' : (s.beginCommand n tag).clock.isSet = false := hset
    subst h0
    rw [exec_prepare_of_accepts hacc, State.prepared, indexOf_val]
    simp [hd', hset', State.withAnswer]
  · simp only [exec_prepare]
    cases yesOfByte k
    · exact .inl rfl
    · exact .inr rfl

/-! ### A START in an IDLE source with no bound frame (R5, R25) -/

/-- The state in which a good record of the source has been received (R22). -/
abbrev State.heard (s : State) (i : SourceId) : State := s.setSource i (s.source i).goodRecord

theorem exec_start {s : State} {i : SourceId} (hidle : (s.source i).state = .idle) (hunbound : (s.source i).binding = none)
    (frequency : Nat) (drum : DrumClass) (rate : LineRate) :
    exec (.start i frequency drum rate) s
      = .next ((s.heard i).bindStart i { frequency := frequency, drum := drum, rate := rate }).closeEvent := by
  have hlink : (s.source i).state ≠ .linkDown := by rw [hidle]; decide
  have hidle' : ((s.heard i).source i).state = .idle := by simpa [Source.goodRecord] using hidle
  have hunbound' : ((s.heard i).source i).binding = none := by simpa [Source.goodRecord] using hunbound
  show execStart i frequency drum rate s = _
  rw [execStart, State.record_of_not_linkDown hlink, State.takeStart]
  simp only [hidle', hunbound', Option.isNone_none, if_true]

theorem State.bindStart_of_chosen {s : State} {i : SourceId} {x : StartRecord} {e : EntryId} {d : EntryFields}
    (hset : s.clock.isSet = true) (h : s.chosenEntry x = some (e, d)) : s.bindStart i x = s.bindScheduled i e d := by
  simp [State.bindStart, hset, h]

theorem State.bindStart_of_none {s : State} {i : SourceId} {x : StartRecord}
    (h : s.clock.isSet = false ∨ s.chosenEntry x = none) : s.bindStart i x = s.bindUnscheduled i x := by
  rcases h with h | h
  · simp [State.bindStart, h]
  · simp [State.bindStart, h]

/-- What the frame that holds a START's key decides of its binding (R9 to R13). -/
theorem State.bindingStep_eq (s : State) (e : EntryId) (d : EntryFields) :
    (∀ f, ¬ s.holdsKey f e d) ∧ s.bindingStep e d = .fresh none
      ∨ ∃ f, s.holdsKey f e d ∧ s.bindingStep e d =
        match (s.frame f).state with
        | .receiving =>
          if (s.frame f).entry = some e ∨ (s.frame f).geometry = some d.geometry then .join f else .fresh (some f)
        | .settling => if (s.frame f).entry = some e then .rejoin f else (s.frame f).newPassStep f d
        | .complete => (s.frame f).newPassStep f d
        | .partialOnly => (s.frame f).newPassStep f d
        | .expected => .take f
        | .faulted => .fresh (some f)
        | .free => .fresh none := by
  unfold State.bindingStep
  cases h : s.keyHolder (d.rootOf e) (s.broadcastDay d) with
  | none => exact .inl ⟨(s.keyHolder_eq_none_iff _ _).mp h, rfl⟩
  | some f => exact .inr ⟨f, ((s.keyHolder_eq_some_iff _ _ f).mp h).1, rfl⟩

/-- Where one frame holds the key, that frame decides. -/
theorem State.bindingStep_of_holder {s : State} {e : EntryId} {d : EntryFields} {f : FrameId}
    (h : ∀ k, s.holdsKey k e d ↔ k = f) : s.bindingStep e d =
        match (s.frame f).state with
        | .receiving =>
          if (s.frame f).entry = some e ∨ (s.frame f).geometry = some d.geometry then .join f else .fresh (some f)
        | .settling => if (s.frame f).entry = some e then .rejoin f else (s.frame f).newPassStep f d
        | .complete => (s.frame f).newPassStep f d
        | .partialOnly => (s.frame f).newPassStep f d
        | .expected => .take f
        | .faulted => .fresh (some f)
        | .free => .fresh none := by
  rcases s.bindingStep_eq e d with ⟨hnone, -⟩ | ⟨k, hk, hstep⟩
  · exact absurd ((h f).mpr rfl) (hnone f)
  · obtain rfl := (h k).mp hk
    exact hstep

theorem Frame.newPassStep_of_other {x : Frame} {d : EntryFields} (h : x.geometry ≠ some d.geometry ∨ 15 ≤ x.pass)
    (f : FrameId) : x.newPassStep f d = .fresh (some f) := by
  refine if_neg fun ⟨hg, hp⟩ => ?_
  rcases h with h | h
  · exact h hg
  · omega

/-- A frame that holds the key but cannot take the START leaves it to a fresh frame (R13). -/
theorem State.bindingStep_fresh {s : State} {e : EntryId} {d : EntryFields} (h : ∀ f, s.holdsKey f e d → s.cannotTake f e d) :
    ∃ old, s.bindingStep e d = .fresh old := by
  rcases s.bindingStep_eq e d with ⟨-, hstep⟩ | ⟨f, hf, hstep⟩
  · exact ⟨none, hstep⟩
  · refine ⟨some f, ?_⟩
    rcases h f hf with ⟨hs, he, hg⟩ | ⟨⟨hs, he⟩ | hs | hs, hother⟩ | hs
    · rw [hstep, hs]
      exact if_neg (not_or.mpr ⟨he, hg⟩)
    · rw [hstep, hs]
      exact (if_neg he).trans (Frame.newPassStep_of_other hother f)
    · rw [hstep, hs]
      exact Frame.newPassStep_of_other hother f
    · rw [hstep, hs]
      exact Frame.newPassStep_of_other hother f
    · rw [hstep, hs]

/-- With no slot FREE or evictable a START is discarded, and FRAME_EXHAUSTED logged (R16). -/
theorem State.bindFresh_of_exhausted {s : State} (h : ∀ f, (s.frame f).state ≠ .free ∧ (s.frame f).isEvictable = false)
    (i : SourceId) (k : FrameIdentity) (old : Option FrameId) :
    s.bindFresh i k old = (s.discardStream i).logError
      { kind := .frameExhausted, origin := .source i, frame := none, row := none, pass := none
        detail := if k.entry.isSome then 1 else 2 } := by
  simp [State.bindFresh, s.freeSlot_eq_none_iff.mpr fun f => (h f).1, State.evictionChoice_eq_none fun f => (h f).2]

/-- The state in which a START of the source has been heard and discarded. -/
theorem State.discardStream_heard (s : State) (i : SourceId) : (s.heard i).discardStream i
    = s.setSource i { s.source i with state := .discarding, silenceTimer := some 2000, checkFailures := 0 } := by
  simp [State.discardStream, Source.goodRecord]

/-- Settles O17: no frame is to be had, and the source discards. -/
theorem startWithoutABindingIsDiscarded : Obligations.StartWithoutABindingIsDiscarded := by
  intro i frequency drum rate s hidle hunbound r
  have hdiscard : s.RestKept
      (s.setSource i { s.source i with state := .discarding, silenceTimer := some 2000, checkFailures := 0 }) :=
    .setSource (.inl (by simp))
  refine ⟨fun hnone => ⟨fun hoff => ?_, fun hon hfull => ?_⟩, fun e d hset hchosen hfull hcannot => ?_⟩
  · have hoff' : ((s.heard i).source i).config.adHoc = false := by simpa [Source.goodRecord] using hoff
    rw [exec_start hidle hunbound, State.bindStart_of_none (s := s.heard i) hnone, State.bindUnscheduled, if_neg (by rw [hoff']; decide),
      State.discardStream_heard, (hdiscard.trans (State.raise_restKept _ _ _)).closeEvent r]
    rfl
  · have hon' : ((s.heard i).source i).config.adHoc = true := by simpa [Source.goodRecord] using hon
    rw [exec_start hidle hunbound, State.bindStart_of_none (s := s.heard i) hnone, State.bindUnscheduled, if_pos hon',
      State.bindFresh_of_exhausted (s := s.heard i) hfull, State.discardStream_heard,
      (hdiscard.trans (State.logError_restKept _ _)).closeEvent r]
    rfl
  · obtain ⟨old, hstep⟩ := State.bindingStep_fresh (s := s.heard i) hcannot
    rw [exec_start hidle hunbound, State.bindStart_of_chosen (s := s.heard i) hset hchosen, State.bindScheduled, hstep]
    simp only
    rw [State.bindFresh_of_exhausted (s := s.heard i) hfull, State.discardStream_heard,
      (hdiscard.trans (State.logError_restKept _ _)).closeEvent r]
    rfl

end Sys2Proof.Machine
end

section
/-! SUPPORT. A state in which a section names a frame that is no member of it, which an eviction leaves so (R100, R101). -/

namespace Sys2Proof.Machine

/-- The one entry of the schedule: on air at minute 0 of every day, one row long. -/
def oneRowEntry : EntryFields :=
  { station := 0, product := 1, startMinute := 0, tolerance := 0, frequencies := [20000], drum := .narrow, rate := .lpm60
    direction := .down, rows := 1, days := 127#7, repeatOf := none, dayShift := 0 }

/-- A settled frame without a key, a pin or a membership. -/
def settledFrame : Frame := { Frame.freeWith 0 with state := .complete, settledAt := some (0, 0) }

/-- The one section of group 0, which names frame 0. -/
def strayingSection : MosaicSection := { entry := 0, nominal := 1, frame := some 0, seam := none }

/-- No slot is FREE; the section of group 0 has frame 0 as its bound frame, of which frame 0's record says nothing. -/
def strayingState : State :=
  { State.reset with
    clock := { isSet := true, second := 0, day := 0, weekday := .monday }
    schedule := .ofFn (fun e => if e = 0 then { definition := some (.active, oneRowEntry), writer := none, stamp := 0 }
      else .powerOn)
    frames := .replicate 24 settledFrame
    groups := .ofFn (fun g => if g = 0 then
      { state := .gathering, drum := some .narrow, sections := [strayingSection], height := 1, stamp := 0 }
      else .undefinedWith 0) }

@[simp] theorem strayingState_frame (f : FrameId) : strayingState.frame f = settledFrame := by
  simp [State.frame, strayingState]

@[simp] theorem strayingState_group (g : GroupId) : strayingState.group g = if g = 0 then
    { state := .gathering, drum := some .narrow, sections := [strayingSection], height := 1, stamp := 0 }
    else .undefinedWith 0 := by
  simp [State.group, strayingState]

theorem strayingState_atRest : strayingState.atRest := State.reset_atRest

/-- The only section of the state. -/
theorem strayingState_section {g : GroupId} {j : Nat} {y : MosaicSection}
    (h : (strayingState.group g).sections[j]? = some y) : g = 0 ∧ j = 0 := by
  rw [strayingState_group] at h
  split at h
  · next hg =>
    obtain ⟨hj, -⟩ := List.getElem?_eq_some_iff.mp h
    exact ⟨hg, by simpa using hj⟩
  · simp [Group.undefinedWith] at h

/-- Frame 0 is evicted and set up anew; its section names it before and after, so that it takes no membership. -/
theorem exec_start_strayingState : ∃ t, exec (.start 0 20000 .narrow .lpm60) strayingState = .next t
    ∧ (t.frame 0).mosaic = none := ⟨_, rfl, by decide +kernel⟩

/-- Refutes O18: the clause on an eviction does not ask that a frame which a section names be a member of that section. Where
it is not, the frame leaves no section as it is evicted, and a section that names it already is not taken. -/
theorem not_startTakesAFreshFrame : ¬ Obligations.StartTakesAFreshFrame := by
  intro h
  have hkey : ∀ g, ¬ strayingState.holdsKey g 0 oneRowEntry := fun g ⟨_, hroot, _⟩ => by
    simp [settledFrame, Frame.freeWith] at hroot
  obtain ⟨-, hevicted⟩ := h 0 20000 .narrow .lpm60 0 (identityOf 0 oneRowEntry 0) none strayingState rfl rfl
    strayingState_atRest (.inl ⟨0, oneRowEntry, rfl, by decide +kernel, fun g => by simp [hkey g], fun g hg => (by cases hg), rfl⟩)
  obtain ⟨t, ht, -, -, -, -, htook, -⟩ := hevicted (fun g => by simp [settledFrame]) (by decide +kernel)
    (fun g _ => .inr ⟨by simp, Fin.zero_le g⟩)
  obtain ⟨htook, -⟩ := htook 0 0 0 strayingSection rfl (by decide +kernel) (.inl rfl) (by decide +kernel) (by decide +kernel)
    (fun _ => rfl) (fun h' j' y hy _ => strayingState_section hy)
  obtain ⟨-, hmember, -⟩ := htook
  obtain ⟨t', ht', hnone⟩ := exec_start_strayingState
  rw [ht'] at ht
  cases ht
  rw [hnone] at hmember
  cases hmember

end Sys2Proof.Machine
end

section
/-! SUPPORT. What a raised notice leaves of the pending sets (R169), and the RETAIN holds of a frame (R153). -/

namespace Sys2Proof.Machine

/-! ### Filing a pair (R169) -/

/-- Filing a pair leaves the pairs of every other kind or origin as they are. -/
theorem mem_filePair_of_key_ne {p x : NoticePair} (h : x.key ≠ p.key) : ∀ l, x ∈ filePair p l ↔ x ∈ l
  | [] => by simpa [filePair] using fun hx : x = p => h (hx ▸ rfl)
  | q :: qs => by
    have hp : x ≠ p := fun hx => h (hx ▸ rfl)
    unfold filePair
    split
    · simp [hp]
    · split
      · next hk =>
        have hq : x ≠ q := fun hx => h (hx ▸ hk.symm)
        have hmerged : x ≠ { q with detail := p.detail, count := stickyNext 255 q.count } := fun hx => h <| by
          rw [hx, NoticePair.key_eq_iff]
          exact ⟨rfl, ((NoticePair.key_eq_iff p q).mp hk).2.symm⟩
        simp [hq, hmerged]
      · simp [mem_filePair_of_key_ne h qs]

/-- The filed pair, or the one it has merged into, has its origin and its detail. -/
theorem exists_mem_filePair (p : NoticePair) : ∀ l, ∃ x ∈ filePair p l, x.origin = p.origin ∧ x.detail = p.detail
  | [] => ⟨p, by simp [filePair], rfl, rfl⟩
  | q :: qs => by
    unfold filePair
    split
    · exact ⟨p, List.mem_cons_self, rfl, rfl⟩
    · split
      · next hk => exact ⟨_, List.mem_cons_self, ((NoticePair.key_eq_iff p q).mp hk).2.symm, rfl⟩
      · obtain ⟨x, hx, ho, hd⟩ := exists_mem_filePair p qs
        exact ⟨x, List.mem_cons_of_mem _ hx, ho, hd⟩

/-- A pair of the origin and the detail waits for the client. -/
def State.hasFiled (s : State) (n : ClientId) (o : Origin) (d : NoticeDetail) : Prop :=
  ∃ p ∈ (s.client n).pendingSet, p.origin = o ∧ p.detail = d

@[simp] theorem NoticeClient.offer_levels (c : NoticeClient) (o : Origin) (d : NoticeDetail) :
    (c.offer o d).levels = c.levels := by
  unfold NoticeClient.offer
  dsimp only
  split <;> rfl

/-- An offer leaves the pairs of every other kind or origin as they are. -/
theorem NoticeClient.mem_offer_of_ne {c : NoticeClient} {o : Origin} {d : NoticeDetail} {p : NoticePair}
    (h : p.detail.kindIndex ≠ d.kindIndex ∨ p.origin ≠ o) : p ∈ (c.offer o d).pendingSet ↔ p ∈ c.pendingSet := by
  unfold NoticeClient.offer
  dsimp only
  split
  · rfl
  · refine mem_filePair_of_key_ne (fun hk => ?_) _
    obtain ⟨hkind, horigin⟩ := (NoticePair.key_eq_iff _ _).mp hk
    exact h.elim (fun h => h hkind) (fun h => h horigin)

/-- A notice whose kind the client wants to know of waits for it once it is raised. -/
theorem State.raise_hasFiled {s : State} {n : ClientId} (o : Origin) {d : NoticeDetail}
    (h : (s.client n).levels[d.kindIndex] ≠ 0) : (s.raise o d).hasFiled n o d := by
  unfold State.hasFiled
  rw [State.client_raise]
  unfold NoticeClient.offer
  dsimp only
  rw [if_neg (show ¬ (s.client n).levels[d.kindIndex.val] = 0 from h)]
  exact exists_mem_filePair { origin := o, detail := d, level := _, count := 1 } _

/-- A notice waits on when one of another kind or origin is raised. -/
theorem State.hasFiled.raise {s : State} {n : ClientId} {o o' : Origin} {d d' : NoticeDetail} (h : s.hasFiled n o d)
    (hne : d.kindIndex ≠ d'.kindIndex ∨ o ≠ o') : (s.raise o' d').hasFiled n o d := by
  obtain ⟨p, hp, rfl, rfl⟩ := h
  exact ⟨p, by rw [State.client_raise, NoticeClient.mem_offer_of_ne hne]; exact hp, rfl, rfl⟩

/-- From `s` to `t` no notice has been raised but of these kinds. -/
structure State.SaysOnly (kinds : List (Fin 16)) (s t : State) : Prop where
  levels : ∀ n, (t.client n).levels = (s.client n).levels
  pairs  : ∀ n (p : NoticePair), p.detail.kindIndex ∉ kinds →
    (p ∈ (t.client n).pendingSet ↔ p ∈ (s.client n).pendingSet)

section SaysOnly
variable {kinds : List (Fin 16)} {s t u : State}

theorem State.SaysOnly.refl (s : State) : s.SaysOnly kinds s := ⟨fun _ => rfl, fun _ _ _ => Iff.rfl⟩

theorem State.SaysOnly.of_eq (h : t.clients = s.clients) : s.SaysOnly kinds t :=
  ⟨fun n => by simp [State.client, h], fun n p _ => by simp [State.client, h]⟩

theorem State.SaysOnly.trans (h : s.SaysOnly kinds t) (k : t.SaysOnly kinds u) : s.SaysOnly kinds u :=
  ⟨fun n => (k.levels n).trans (h.levels n), fun n p hp => (k.pairs n p hp).trans (h.pairs n p hp)⟩

theorem State.SaysOnly.mono {more : List (Fin 16)} (h : s.SaysOnly kinds t) (hk : kinds ⊆ more) : s.SaysOnly more t :=
  ⟨h.levels, fun n p hp => h.pairs n p fun hmem => hp (hk hmem)⟩

theorem State.SaysOnly.raise (s : State) (o : Origin) {d : NoticeDetail} (h : d.kindIndex ∈ kinds) :
    s.SaysOnly kinds (s.raise o d) :=
  ⟨fun n => by simp, fun n p hp => by
    rw [State.client_raise]
    exact NoticeClient.mem_offer_of_ne (.inl fun hk => hp (hk ▸ h))⟩

theorem State.SaysOnly.hasFiled {n : ClientId} {o : Origin} {d : NoticeDetail} (h : s.SaysOnly kinds t)
    (hs : s.hasFiled n o d) (hd : d.kindIndex ∉ kinds) : t.hasFiled n o d := by
  obtain ⟨p, hp, rfl, rfl⟩ := hs
  exact ⟨p, (h.pairs n p hd).mpr hp, rfl, rfl⟩

end SaysOnly

/-! ### RETAIN holds of a frame (R153) -/

/-- The frame with the cursors that `who` names joined to its pin holders, or taken from them. -/
def Frame.withRetain (x : Frame) (who : CursorId → Bool) (b : Bool) : Frame :=
  { x with pins := { x.pins with retain := .ofFn (fun c => if who c then b else x.pins.retain[c]) } }

@[simp] theorem Frame.retain_withRetain (x : Frame) (who : CursorId → Bool) (b : Bool) (c : CursorId) :
    (x.withRetain who b).pins.retain[c.val] = if who c then b else x.pins.retain[c.val] := by
  simp [Frame.withRetain]

@[simp] theorem Frame.explicit_withRetain (x : Frame) (who : CursorId → Bool) (b : Bool) :
    (x.withRetain who b).pins.explicit = x.pins.explicit := rfl

/-- Two frames that differ in their RETAIN holds alone are equal where the holds are. -/
theorem Frame.eq_of_retain {x y : Frame} (h : y = { x with pins := { x.pins with retain := y.pins.retain } })
    (hr : ∀ c : CursorId, y.pins.retain[c.val] = x.pins.retain[c.val]) : y = x := by
  have : y.pins.retain = x.pins.retain := Vector.ext fun k hk => hr ⟨k, hk⟩
  rw [h, this]

theorem Frame.setRetain_eq (x : Frame) (c : CursorId) (b : Bool) : x.setRetain c b = x.withRetain (fun d => decide (d = c)) b :=
  Frame.eq_of_retain rfl fun d => by
    rw [Frame.retain_withRetain]
    simp [Frame.setRetain, setMember, Vector.getElem_set, Fin.ext_iff, eq_comm]

theorem Frame.withRetain_of_none {x : Frame} {who : CursorId → Bool} {b : Bool} (h : ∀ c, who c = false) :
    x.withRetain who b = x :=
  Frame.eq_of_retain rfl fun c => by rw [Frame.retain_withRetain, h c]; rfl

theorem Frame.withRetain_withRetain (x : Frame) (p q : CursorId → Bool) (b : Bool) :
    (x.withRetain p b).withRetain q b = x.withRetain (fun c => p c || q c) b :=
  Frame.eq_of_retain rfl fun c => by
    rw [Frame.retain_withRetain, Frame.retain_withRetain, Frame.retain_withRetain]
    cases p c <;> cases q c <;> rfl

/-- A frame without pins has none to give up. -/
theorem Frame.withRetain_of_isEmpty {x : Frame} (h : x.pins.isEmpty = true) (who : CursorId → Bool) :
    x.withRetain who false = x :=
  Frame.eq_of_retain rfl fun c => by
    have hall : ∀ b ∈ x.pins.retain.toList, ¬ id b = true := by
      simp only [PinSet.isEmpty, anyMember, Bool.and_eq_true, Bool.not_eq_true', List.any_eq_false] at h
      exact h.2
    have hc : x.pins.retain[c.val] = false := Bool.eq_false_of_not_eq_true (hall _ (by simp))
    rw [Frame.retain_withRetain, hc, ite_self]

/-- A group's RETAIN cursors join the pin holders of a frame, or leave them (R153). -/
theorem State.retainFor_eq (s : State) (g : GroupId) (f : FrameId) (b : Bool) :
    s.retainFor g f b = s.setFrame f ((s.frame f).withRetain (fun c => (s.cursor c).retainsGroup g) b) := by
  have fold : ∀ l : List CursorId,
      l.foldl (fun s c => if (s.cursor c).retainsGroup g then s.modifyFrame f (fun x => x.setRetain c b) else s) s
        = s.setFrame f ((s.frame f).withRetain (fun c => decide (c ∈ l) && (s.cursor c).retainsGroup g) b) := by
    intro l
    induction l using List.reverseRecOn with
    | nil => rw [Frame.withRetain_of_none (by simp)]; simp
    | append_singleton l a ih =>
      rw [List.foldl_append, ih]
      by_cases ha : (s.cursor a).retainsGroup g = true
      · refine (if_pos ha).trans ?_
        simp only [State.modifyFrame_eq, State.setFrame_setFrame, State.frame_setFrame_self, Frame.setRetain_eq,
          Frame.withRetain_withRetain]
        congr 2
        funext c
        by_cases hc : c = a <;> simp [hc, ha]
      · refine (if_neg ha).trans ?_
        congr 2
        funext c
        by_cases hc : c = a <;> simp [hc, ha]
  have hall : ∀ c : CursorId, c ∈ allCursors := by decide
  exact (fold allCursors).trans (by simp [hall])

end Sys2Proof.Machine
end

section
/-! SUPPORT. What the mosaic unit does, said once: the fields it changes, the sections it leaves, and what a changed section
does to its group (R100 to R106). -/

namespace Sys2Proof.Machine

/-! ### The fields the mosaic unit changes -/

/-- From `s` to `t` by operations of the mosaic unit: of a frame only its membership and its RETAIN holds change; the engine
is as it was or idle; the seam's holder keeps its read; and only MOSAIC_JOINED and MOSAIC_STALE are raised. -/
structure State.Remosaics (s t : State) : Prop where
  only   : t = { s with
    frames := t.frames, groups := t.groups, seamQueue := t.seamQueue, engine := t.engine, seamHolder := t.seamHolder
    clients := t.clients }
  frames : ∀ f, ∃ m r, t.frame f = { s.frame f with mosaic := m, pins := { (s.frame f).pins with retain := r } }
  engine : t.engine = s.engine ∨ t.engine = none
  holder : t.seamHolder.isSome = s.seamHolder.isSome
  notices : s.SaysOnly [10, 11] t

section Remosaics
variable {s t u : State}

theorem State.Remosaics.refl (s : State) : s.Remosaics s :=
  ⟨rfl, fun _ => ⟨_, _, rfl⟩, .inl rfl, rfl, .refl s⟩

theorem State.Remosaics.trans (h : s.Remosaics t) (k : t.Remosaics u) : s.Remosaics u where
  only := by rw [k.only, h.only]
  frames f := by
    obtain ⟨m, r, hf⟩ := k.frames f
    obtain ⟨m', r', hf'⟩ := h.frames f
    exact ⟨m, r, by rw [hf, hf']⟩
  engine := by
    rcases k.engine with hu | hu
    · rw [hu]; exact h.engine
    · exact .inr hu
  holder := k.holder.trans h.holder
  notices := h.notices.trans k.notices

theorem State.Remosaics.foldl {α : Type} {g : State → α → State} (hg : ∀ (s : State) (a : α), s.Remosaics (g s a)) :
    ∀ (l : List α) (s : State), s.Remosaics (l.foldl g s)
  | [], s => .refl s
  | a :: l, s => (hg s a).trans (State.Remosaics.foldl hg l (g s a))

theorem State.Remosaics.ite {p : Prop} [Decidable p] (h : s.Remosaics t) (k : s.Remosaics u) :
    s.Remosaics (if p then t else u) := by
  split
  · exact h
  · exact k

theorem State.Remosaics.source (h : s.Remosaics t) (i : SourceId) : t.source i = s.source i := by
  unfold State.source
  rw [h.only]

theorem State.Remosaics.cursor (h : s.Remosaics t) (c : CursorId) : t.cursor c = s.cursor c := by
  unfold State.cursor
  rw [h.only]

theorem State.Remosaics.restKept (h : s.Remosaics t) : s.RestKept t where
  sources i := .inr (by simp [h.source])
  engine := h.engine
  holders k := by
    cases k with
    | cursor c => show (t.holders[c.val]).isSome = (s.holders[c.val]).isSome; rw [h.only]
    | seam => exact h.holder
  cursors c hc := by rw [h.cursor] at hc ⊢; exact ⟨hc, rfl⟩

/-- A write of groups and seam queue alone. -/
theorem State.Remosaics.of_groups (s : State) (l : Vector Group 8) (q : List (GroupId × Nat)) :
    s.Remosaics { s with groups := l, seamQueue := q } :=
  ⟨rfl, fun _ => ⟨_, _, rfl⟩, .inl rfl, rfl, .of_eq rfl⟩

/-- A write of a frame's membership and RETAIN holds alone. -/
theorem State.Remosaics.setFrame {f : FrameId} {x : Frame}
    (h : ∃ m r, x = { s.frame f with mosaic := m, pins := { (s.frame f).pins with retain := r } }) :
    s.Remosaics (s.setFrame f x) :=
  ⟨rfl, fun q => by
    rw [State.frame_setFrame]
    split
    · next hq => exact hq ▸ h
    · exact ⟨_, _, rfl⟩, .inl rfl, rfl, .of_eq rfl⟩

theorem State.Remosaics.raise (s : State) (o : Origin) {d : NoticeDetail} (h : d.kindIndex ∈ ([10, 11] : List (Fin 16))) :
    s.Remosaics (s.raise o d) := by
  have hsays := State.SaysOnly.raise s o h
  rw [State.raise_eq] at hsays ⊢
  exact ⟨rfl, fun _ => ⟨_, _, rfl⟩, .inl rfl, rfl, hsays⟩

end Remosaics

theorem State.modifyGroup_remosaics (s : State) (g : GroupId) (h : Group → Group) : s.Remosaics (s.modifyGroup g h) :=
  .of_groups s _ s.seamQueue

theorem State.setSeamQueue_remosaics (s : State) (q : List (GroupId × Nat)) : s.Remosaics { s with seamQueue := q } :=
  .of_groups s s.groups q

theorem State.abandonSearch_remosaics (s : State) : s.Remosaics s.abandonSearch :=
  ⟨rfl, fun _ => ⟨_, _, rfl⟩, .inr rfl, Option.isSome_map, .of_eq rfl⟩

theorem State.resetSeam_remosaics (s : State) (g : GroupId) (k : Nat) : s.Remosaics (s.resetSeam g k) := by
  unfold State.resetSeam
  split
  · exact .refl s
  · exact ((State.Remosaics.ite s.abandonSearch_remosaics (.refl s)).trans (State.setSeamQueue_remosaics _ _)).trans
      (State.modifyGroup_remosaics _ g _)

theorem State.queueSeam_remosaics (s : State) (g : GroupId) (k : Nat) : s.Remosaics (s.queueSeam g k) := by
  unfold State.queueSeam
  split
  · exact .refl s
  · exact .ite (.refl s) (.ite ((s.setSeamQueue_remosaics _).trans (State.modifyGroup_remosaics _ g _))
      (s.modifyGroup_remosaics g _))

theorem State.admitWaiting_remosaics (s : State) (g : GroupId) (k : Nat) : s.Remosaics (s.admitWaiting g k) := by
  unfold State.admitWaiting
  split
  · exact .refl s
  · exact .ite ((s.setSeamQueue_remosaics _).trans (State.modifyGroup_remosaics _ g _)) (.refl s)

theorem State.refillQueue_remosaics (s : State) : s.Remosaics s.refillQueue :=
  State.Remosaics.foldl (fun s g => State.Remosaics.foldl (fun s k => s.admitWaiting_remosaics g k) _ s) _ s

theorem State.testJoined_remosaics (b s : State) (g : GroupId) : s.Remosaics (b.testJoined s g) :=
  .ite ((s.modifyGroup_remosaics g _).trans (.raise _ _ List.mem_cons_self)) (.refl s)

theorem State.testJoining_remosaics (b s : State) (g : GroupId) : s.Remosaics (b.testJoining s g) :=
  .ite (((s.modifyGroup_remosaics g _).trans (State.Remosaics.foldl (fun s k => s.queueSeam_remosaics g k) _ _)).trans
    (State.testJoined_remosaics _ _ _)) (.refl s)

theorem State.ungather_remosaics (b s : State) (g : GroupId) (k : Nat) (c : StaleCause) : s.Remosaics (b.ungather s g k c) := by
  unfold State.ungather
  split
  · exact s.modifyGroup_remosaics g _
  · exact (s.modifyGroup_remosaics g _).trans (.raise _ _ (List.mem_cons_of_mem _ List.mem_cons_self))
  · exact .refl s
  · exact .refl s

theorem State.sectionChanged_remosaics (b s : State) (g : GroupId) (k : Nat) (c : StaleCause) :
    s.Remosaics (b.sectionChanged s g k c) :=
  (((((s.resetSeam_remosaics g k).trans (State.resetSeam_remosaics _ _ _)).trans (State.refillQueue_remosaics _)).trans
    (State.modifyGroup_remosaics _ g _)).trans (State.ungather_remosaics _ _ _ _ _)).trans (State.testJoining_remosaics _ _ _)

theorem State.retainFor_remosaics (s : State) (g : GroupId) (f : FrameId) (b : Bool) : s.Remosaics (s.retainFor g f b) := by
  rw [State.retainFor_eq]
  exact .setFrame ⟨_, _, rfl⟩

theorem State.clearMembership_remosaics (s : State) (g : GroupId) (f : FrameId) : s.Remosaics (s.clearMembership g f) :=
  (State.Remosaics.setFrame ⟨none, _, rfl⟩).trans (State.retainFor_remosaics _ g f false)

theorem State.leaveSection_remosaics (b s : State) (f : FrameId) (g : GroupId) (k : Nat) (c : StaleCause) :
    s.Remosaics (b.leaveSection s f g k c) :=
  ((s.modifyGroup_remosaics g _).trans (State.clearMembership_remosaics _ g f)).trans (State.sectionChanged_remosaics _ _ _ _ _)

/-- The state in which a frame has left the section it was in, if any, for another (R100). -/
def State.leftOld (before s : State) (f : FrameId) : State :=
  match (s.frame f).mosaic with
  | some (g', k') => before.leaveSection s f g' k' .newFrame
  | none => s

/-- The state in which the bound frame of a section, if any, has lost its membership (R100). -/
def State.clearedOld (s : State) (g : GroupId) (k : Nat) : State :=
  match s.sectionFrame g k with
  | some old => s.clearMembership g old
  | none => s

/-- A section takes a frame that is not its bound frame: the frame leaves the section it was in, the section's bound frame
loses its membership, and the section is changed (R100). -/
theorem State.takeFrame_eq {before s : State} {g : GroupId} {k : Nat} {f : FrameId} (h : s.sectionFrame g k ≠ some f) :
    before.takeFrame s g k f = before.sectionChanged
      (((((before.leftOld s f).clearedOld g k).setSectionFrame g k (some f)).modifyFrame f
        (fun x => { x with mosaic := some (g, k) })).retainFor g f true) g k .newFrame := by
  unfold State.takeFrame
  rw [if_neg h]
  rfl

theorem State.leftOld_remosaics (b s : State) (f : FrameId) : s.Remosaics (b.leftOld s f) := by
  unfold State.leftOld
  split
  · exact State.leaveSection_remosaics _ _ _ _ _ _
  · exact .refl s

theorem State.clearedOld_remosaics (s : State) (g : GroupId) (k : Nat) : s.Remosaics (s.clearedOld g k) := by
  unfold State.clearedOld
  split
  · exact s.clearMembership_remosaics g _
  · exact .refl s

theorem State.takeFrame_remosaics (b s : State) (g : GroupId) (k : Nat) (f : FrameId) : s.Remosaics (b.takeFrame s g k f) := by
  by_cases h : s.sectionFrame g k = some f
  · rw [State.takeFrame, if_pos h]
    exact .refl s
  · rw [State.takeFrame_eq h]
    refine State.Remosaics.trans ?_ (State.sectionChanged_remosaics _ _ _ _ _)
    refine State.Remosaics.trans ?_ (State.retainFor_remosaics _ _ _ _)
    refine State.Remosaics.trans ?_ (State.Remosaics.setFrame ⟨_, _, rfl⟩)
    exact ((State.leftOld_remosaics _ _ _).trans (State.clearedOld_remosaics _ _ _)).trans (State.modifyGroup_remosaics _ _ _)

theorem State.tellBound_remosaics (s : State) (f : FrameId) : s.Remosaics (s.tellBound f) := by
  unfold State.tellBound
  split
  · exact .ite (s.takeFrame_remosaics s _ _ f) (.refl s)
  · exact .refl s

theorem State.tellNewPass_remosaics (s : State) (f : FrameId) : s.Remosaics (s.tellNewPass f) := by
  unfold State.tellNewPass
  split
  · exact State.sectionChanged_remosaics _ _ _ _ _
  · exact .refl s

theorem State.tellGone_remosaics (s : State) (f : FrameId) (c : StaleCause) : s.Remosaics (s.tellGone f c) := by
  unfold State.tellGone
  split
  · exact State.leaveSection_remosaics _ _ _ _ _ _
  · exact .refl s

end Sys2Proof.Machine
end

section
/-! SUPPORT. What a change of a section leaves of the sections, and what it does to seams, jobs and the group's state (R102 to
R106). -/

namespace Sys2Proof.Machine

/-! ### Sections without the results of their seams -/

/-- A section without its seam's result: its entry, nominal rows, bound frame and overlap. -/
def MosaicSection.bare (x : MosaicSection) : MosaicSection := { x with seam := x.seam.map Seam.cleared }

@[simp] theorem MosaicSection.bare_entry (x : MosaicSection) : x.bare.entry = x.entry := rfl
@[simp] theorem MosaicSection.bare_frame (x : MosaicSection) : x.bare.frame = x.frame := rfl

theorem MosaicSection.bare_overlap (x : MosaicSection) : x.bare.seam.map Seam.overlap = x.seam.map Seam.overlap := by
  cases h : x.seam <;> simp [MosaicSection.bare, h, Seam.cleared]

/-- From `s` to `t` frames and schedule stay, and the groups keep drum classes and sections but for the results of seams. -/
structure State.SectionsKept (s t : State) : Prop where
  frames   : t.frames = s.frames
  schedule : t.schedule = s.schedule
  drum     : ∀ g, (t.group g).drum = (s.group g).drum
  sections : ∀ g, (t.group g).sections.map MosaicSection.bare = (s.group g).sections.map MosaicSection.bare

section SectionsKept
variable {s t u : State}

theorem State.SectionsKept.refl (s : State) : s.SectionsKept s := ⟨rfl, rfl, fun _ => rfl, fun _ => rfl⟩

theorem State.SectionsKept.trans (h : s.SectionsKept t) (k : t.SectionsKept u) : s.SectionsKept u :=
  ⟨k.frames.trans h.frames, k.schedule.trans h.schedule, fun g => (k.drum g).trans (h.drum g),
    fun g => (k.sections g).trans (h.sections g)⟩

theorem State.SectionsKept.foldl {α : Type} {g : State → α → State} (hg : ∀ (s : State) (a : α), s.SectionsKept (g s a)) :
    ∀ (l : List α) (s : State), s.SectionsKept (l.foldl g s)
  | [], s => .refl s
  | a :: l, s => (hg s a).trans (State.SectionsKept.foldl hg l (g s a))

theorem State.SectionsKept.ite {p : Prop} [Decidable p] (h : s.SectionsKept t) (k : s.SectionsKept u) :
    s.SectionsKept (if p then t else u) := by
  split
  · exact h
  · exact k

/-- A change of none of the tables concerned. -/
theorem State.SectionsKept.of_eq (hf : t.frames = s.frames) (hs : t.schedule = s.schedule) (hg : t.groups = s.groups) :
    s.SectionsKept t :=
  ⟨hf, hs, fun g => by simp [State.group, hg], fun g => by simp [State.group, hg]⟩

/-- A group's record changes but for drum class and sections. -/
theorem State.SectionsKept.modifyGroup {g : GroupId} {h : Group → Group} (hd : (h (s.group g)).drum = (s.group g).drum)
    (hs : (h (s.group g)).sections.map MosaicSection.bare = (s.group g).sections.map MosaicSection.bare) :
    s.SectionsKept (s.modifyGroup g h) := by
  refine ⟨rfl, rfl, fun g' => ?_, fun g' => ?_⟩ <;> rw [State.modifyGroup_eq, State.group_setGroup] <;> split
  · subst_vars; exact hd
  · rfl
  · subst_vars; exact hs
  · rfl

theorem State.SectionsKept.frame (h : s.SectionsKept t) (f : FrameId) : t.frame f = s.frame f := by
  simp [State.frame, h.frames]

theorem State.SectionsKept.getElem? (h : s.SectionsKept t) (g : GroupId) (k : Nat) :
    (t.group g).sections[k]?.map MosaicSection.bare = (s.group g).sections[k]?.map MosaicSection.bare := by
  rw [← List.getElem?_map, ← List.getElem?_map, h.sections]

theorem State.SectionsKept.sectionFrame (h : s.SectionsKept t) (g : GroupId) (k : Nat) :
    t.sectionFrame g k = s.sectionFrame g k := by
  have hk := congrArg (fun x : Option MosaicSection => x.bind MosaicSection.frame) (h.getElem? g k)
  simpa [State.sectionFrame, Option.bind_map, Function.comp_def] using hk

theorem State.SectionsKept.sectionSettled (h : s.SectionsKept t) (x : MosaicSection) :
    t.sectionSettled x = s.sectionSettled x := by
  simp [State.sectionSettled, h.frame]

/-- A test of entries and frames finds the sections of a group as it found them before. -/
theorem State.SectionsKept.all_settled (h : s.SectionsKept t) (g : GroupId) :
    (t.group g).sections.all t.sectionSettled = (s.group g).sections.all s.sectionSettled := by
  have hbare : ∀ l : List MosaicSection, l.all s.sectionSettled = (l.map MosaicSection.bare).all s.sectionSettled := fun l => by
    rw [List.all_map]
    rfl
  rw [show t.sectionSettled = s.sectionSettled from funext h.sectionSettled, hbare, h.sections, ← hbare]

theorem State.SectionsKept.sectionOfEntry (h : s.SectionsKept t) (e : EntryId) : t.sectionOfEntry e = s.sectionOfEntry e := by
  have hbare : ∀ l : List MosaicSection,
      l.findIdx? (fun y => y.entry == e) = (l.map MosaicSection.bare).findIdx? (fun y => y.entry == e) := fun l => by
    rw [List.findIdx?_map]
    rfl
  unfold State.sectionOfEntry
  congr 1
  funext g
  rw [hbare, h.sections, ← hbare]

theorem State.SectionsKept.matchingSection (h : s.SectionsKept t) (e : EntryId) :
    t.matchingSection e = s.matchingSection e := by
  have hrepeat : t.repeatOf e = s.repeatOf e := by simp [State.repeatOf, State.entryAt, h.schedule]
  unfold State.matchingSection
  rw [h.sectionOfEntry, hrepeat, show t.sectionOfEntry = s.sectionOfEntry from funext h.sectionOfEntry]

theorem overlapAt_map_bare (l : List MosaicSection) (k : Nat) : overlapAt (l.map MosaicSection.bare) k = overlapAt l k := by
  unfold overlapAt
  rw [List.getElem?_map]
  cases l[k]? with
  | none => rfl
  | some x => simp [MosaicSection.bare_overlap]

theorem minimumRows_map_bare (l : List MosaicSection) (k : Nat) :
    minimumRows (l.map MosaicSection.bare) k = minimumRows l k := by
  simp [minimumRows, overlapAt_map_bare]

theorem State.SectionsKept.fitsSection (h : s.SectionsKept t) (g : GroupId) (k : Nat) (f : FrameId) :
    t.fitsSection g k f = s.fitsSection g k f := by
  unfold State.fitsSection
  rw [h.frame, h.drum, ← minimumRows_map_bare (t.group g).sections, h.sections, minimumRows_map_bare]

end SectionsKept

/-! ### Heights (R97, R104) -/

theorem State.sectionRows_eq (s : State) (x : MosaicSection) : s.sectionRows x = s.rowsOf x := by
  unfold State.sectionRows State.rowsOf
  cases x.frame with
  | none => rfl
  | some f => cases h : (s.frame f).geometry <;> simp [h]

/-- The height counted section by section is the rows and offsets summed. -/
theorem State.heightFrom_eq (s : State) (l : List MosaicSection) (below : Int) : s.heightFrom below l = below + s.heightOf l := by
  induction l generalizing below with
  | nil => simp [State.heightFrom, State.heightOf]
  | cons x rest ih =>
    have htop : x.topBelow below = below + x.offset := by
      cases h : x.seam <;> simp [MosaicSection.topBelow, MosaicSection.offset, h]
      omega
    simp only [State.heightFrom, ih, State.heightOf, htop, s.sectionRows_eq, List.map_cons, List.sum_cons]
    omega

theorem State.heightOf_congr {s t : State} (h : t.frames = s.frames) (l : List MosaicSection) : t.heightOf l = s.heightOf l := by
  have hrows : t.rowsOf = s.rowsOf := by
    funext x
    simp only [State.rowsOf, State.frame, h]
  rw [State.heightOf, State.heightOf, hrows]

/-! ### Seams -/

theorem State.seam_congr {s t : State} {g : GroupId} (h : (t.group g).sections = (s.group g).sections) (k : Nat) :
    t.seam g k = s.seam g k := by
  simp [State.seam, h]

theorem State.group_modifySeam (s : State) (g g' : GroupId) (k : Nat) (h : Seam → Seam) :
    (s.modifySeam g k h).group g' = { s.group g' with sections := ((s.modifySeam g k h).group g').sections } := by
  simp only [State.modifySeam, State.modifyGroup_eq, State.group_setGroup]
  split
  · subst_vars; rfl
  · rfl

theorem State.seam_modifySeam (s : State) (g g' : GroupId) (k k' : Nat) (h : Seam → Seam) :
    (s.modifySeam g k h).seam g' k' = if g' = g ∧ k' = k then (s.seam g k).map h else s.seam g' k' := by
  simp only [State.seam, State.modifySeam, State.modifyGroup_eq, State.group_setGroup]
  by_cases hg : g' = g
  · subst hg
    simp only [if_true, true_and, List.getElem?_modify]
    by_cases hk : k' = k
    · subst hk
      simp [Option.bind_map, Option.map_bind]
    · simp [hk, Ne.symm hk]
  · simp [hg]

theorem State.sectionsKept_modifySeam (s : State) (g : GroupId) (k : Nat) (h : Seam → Seam) (hh : ∀ m, (h m).cleared = m.cleared) :
    s.SectionsKept (s.modifySeam g k h) := by
  refine .modifyGroup rfl (List.ext_getElem? fun j => ?_)
  simp only [List.getElem?_map, List.getElem?_modify]
  cases (s.group g).sections[j]? with
  | none => simp
  | some x =>
    by_cases hj : k = j
    · cases hx : x.seam <;> simp [hj, MosaicSection.bare, hx, hh]
    · simp [hj]

/-- A seam is as it was, or a WAITING one has been queued (R106). -/
def SeamCarried (x y : Option Seam) : Prop :=
  y = x ∨ ∃ m, x = some m ∧ m.state = .waiting ∧ y = some { m with state := .queued }

theorem SeamCarried.refl (x : Option Seam) : SeamCarried x x := .inl rfl

theorem SeamCarried.trans {x y z : Option Seam} (h : SeamCarried x y) (k : SeamCarried y z) : SeamCarried x z := by
  rcases h with rfl | ⟨m, rfl, hm, rfl⟩
  · exact k
  · rcases k with rfl | ⟨m', hm', hw, -⟩
    · exact .inr ⟨m, rfl, hm, rfl⟩
    · cases hm'
      cases hw

/-- A seam that does not wait is as it was. -/
theorem SeamCarried.of_not_waiting {x y : Option Seam} (h : SeamCarried x y) (hx : ∀ m, x = some m → m.state ≠ .waiting) : y = x := by
  rcases h with h | ⟨m, hm, hw, -⟩
  · exact h
  · exact absurd hw (hx m hm)

/-- A seam that waits after WAITING ones have been queued did so before. -/
theorem SeamCarried.waiting {x y : Option Seam} {m : Seam} (h : SeamCarried x y) (hy : y = some m) (hw : m.state = .waiting) :
    x = some m := by
  rcases h with rfl | ⟨m', -, -, rfl⟩
  · exact hy
  · cases hy
    cases hw

/-- From `s` to `t` WAITING seams have moved into the queue's room, and nothing else has changed (R106). -/
structure State.Refills (s t : State) : Prop where
  group  : ∀ g, t.group g = { s.group g with sections := (t.group g).sections }
  seam   : ∀ g k, SeamCarried (s.seam g k) (t.seam g k)
  queue  : ∀ j ∈ t.seamQueue, j ∈ s.seamQueue ∨ ∃ m, s.seam j.1 j.2 = some m ∧ m.state = .waiting
  engine : t.engine = s.engine
  kept   : s.SectionsKept t

theorem State.Refills.refl (s : State) : s.Refills s := ⟨fun _ => rfl, fun _ _ => .refl _, fun _ => .inl, rfl, .refl s⟩

theorem State.Refills.trans {s t u : State} (h : s.Refills t) (k : t.Refills u) : s.Refills u where
  group g := by rw [k.group g, h.group g]
  seam g j := (h.seam g j).trans (k.seam g j)
  queue j hj := by
    rcases k.queue j hj with hj | ⟨m, hm, hw⟩
    · exact h.queue j hj
    · exact .inr ⟨m, (h.seam _ _).waiting hm hw, hw⟩
  engine := k.engine.trans h.engine
  kept := h.kept.trans k.kept

theorem State.Refills.foldl {α : Type} {g : State → α → State} (hg : ∀ (s : State) (a : α), s.Refills (g s a)) :
    ∀ (l : List α) (s : State), s.Refills (l.foldl g s)
  | [], s => .refl s
  | a :: l, s => (hg s a).trans (State.Refills.foldl hg l (g s a))

theorem State.admitWaiting_refills (s : State) (g : GroupId) (k : Nat) : s.Refills (s.admitWaiting g k) := by
  unfold State.admitWaiting
  split
  · exact .refl s
  · next m hm =>
    split
    · next hw =>
      set t : State := { s with seamQueue := s.seamQueue ++ [(g, k)] }
      have hkept : s.SectionsKept t := .of_eq rfl rfl rfl
      refine ⟨fun g' => t.group_modifySeam g g' k _, fun g' k' => ?_, fun j hj => ?_, rfl,
        hkept.trans (t.sectionsKept_modifySeam g k _ fun _ => rfl)⟩
      · rw [State.seam_modifySeam]
        split
        · next h =>
          obtain ⟨rfl, rfl⟩ := h
          exact .inr ⟨m, hm, hw.1, by rw [show t.seam g' k' = some m from hm]; rfl⟩
        · exact .inl rfl
      · rcases List.mem_append.mp (show j ∈ s.seamQueue ++ [(g, k)] from hj) with hj | hj
        · exact .inl hj
        · rw [List.mem_singleton.mp hj]
          exact .inr ⟨m, hm, hw.1⟩
    · exact .refl s

theorem State.refillQueue_refills (s : State) : s.Refills s.refillQueue :=
  State.Refills.foldl (fun s g => State.Refills.foldl (fun s k => s.admitWaiting_refills g k) _ s) _ s

/-- From `s` to `t` a seam has been reset: it has no result and no job, its search is abandoned (R103). -/
structure State.Resets (s t : State) (g : GroupId) (k : Nat) : Prop where
  group  : ∀ h, t.group h = { s.group h with sections := (t.group h).sections }
  seam   : ∀ h j, t.seam h j = if h = g ∧ j = k then (s.seam g k).map Seam.cleared else s.seam h j
  queue  : ∀ j ∈ t.seamQueue, j ∈ s.seamQueue ∧ ((s.seam g k).isSome = true → j ≠ (g, k))
  engine : (t.engine = s.engine ∨ t.engine = none) ∧ ∀ m, s.seam g k = some m → m.state = .searching → t.engine = none
  kept   : s.SectionsKept t

theorem State.resetSeam_resets (s : State) (g : GroupId) (k : Nat) : s.Resets (s.resetSeam g k) g k := by
  cases hm : s.seam g k with
  | none =>
    rw [State.resetSeam, hm]
    show s.Resets s g k
    refine ⟨fun _ => rfl, fun h j => ?_, fun j hj => ⟨hj, by simp [hm]⟩, ⟨.inl rfl, by simp [hm]⟩, .refl s⟩
    split
    · next hj => rw [hj.1, hj.2, hm]; rfl
    · rfl
  | some m =>
    rw [State.resetSeam, hm]
    dsimp only
    set a : State := if m.state = .searching then s.abandonSearch else s with ha
    have hgroups : a.groups = s.groups := by rw [ha]; split <;> rfl
    have hqueue : a.seamQueue = s.seamQueue := by rw [ha]; split <;> rfl
    have hkept : s.SectionsKept a := by rw [ha]; split <;> exact .of_eq rfl rfl rfl
    have hgroup : ∀ h, (a.dropJob g k).group h = s.group h := fun h => by
      show a.group h = _
      simp [State.group, hgroups]
    refine ⟨fun h => ?_, fun h j => ?_, fun j hj => ?_, ⟨?_, fun m' hm' hs => ?_⟩, ?_⟩
    · rw [State.group_modifySeam, hgroup]
    · rw [State.seam_modifySeam, State.seam_congr (congrArg Group.sections (hgroup g)),
        State.seam_congr (congrArg Group.sections (hgroup h))]
    · have hj : j ∈ a.seamQueue.filter (fun j => !(j.1 == g && j.2 == k)) := hj
      rw [List.mem_filter, hqueue] at hj
      obtain ⟨hmem, hne⟩ := hj
      exact ⟨hmem, fun _ e => by simp [e] at hne⟩
    · show a.engine = _ ∨ a.engine = _
      rw [ha]
      split
      · exact .inr rfl
      · exact .inl rfl
    · rw [hm] at hm'
      cases hm'
      show a.engine = _
      rw [ha, if_pos hs]
      rfl
    · have hdrop : a.SectionsKept (a.dropJob g k) := .of_eq rfl rfl rfl
      exact (hkept.trans hdrop).trans (State.sectionsKept_modifySeam _ g k _ fun _ => rfl)

/-! ### A changed section (R103) -/

theorem State.recomputeHeight_sectionsKept (s : State) (g : GroupId) : s.SectionsKept (s.recomputeHeight g) :=
  .modifyGroup rfl rfl

theorem State.raise_sectionsKept (s : State) (o : Origin) (d : NoticeDetail) : s.SectionsKept (s.raise o d) := by
  rw [State.raise_eq]
  exact .of_eq rfl rfl rfl

theorem State.ungather_sectionsKept (b s : State) (g : GroupId) (k : Nat) (c : StaleCause) :
    s.SectionsKept (b.ungather s g k c) := by
  have henter : s.SectionsKept (b.enterGroup s g .gathering) := .modifyGroup rfl rfl
  unfold State.ungather
  split
  · exact henter
  · exact henter.trans (State.raise_sectionsKept _ _ _)
  · exact .refl s
  · exact .refl s

theorem State.queueSeam_sectionsKept (s : State) (g : GroupId) (k : Nat) : s.SectionsKept (s.queueSeam g k) := by
  have hposted : s.SectionsKept { s with seamQueue := s.seamQueue ++ [(g, k)] } := .of_eq rfl rfl rfl
  unfold State.queueSeam
  split
  · exact .refl s
  · exact .ite (.refl s) (.ite (hposted.trans (State.sectionsKept_modifySeam _ g k _ fun _ => rfl))
      (State.sectionsKept_modifySeam _ g k _ fun _ => rfl))

theorem State.testJoined_sectionsKept (b s : State) (g : GroupId) : s.SectionsKept (b.testJoined s g) :=
  .ite (State.SectionsKept.trans (.modifyGroup rfl rfl) (State.raise_sectionsKept _ _ _)) (.refl s)

theorem State.testJoining_sectionsKept (b s : State) (g : GroupId) : s.SectionsKept (b.testJoining s g) :=
  .ite (State.SectionsKept.trans (State.SectionsKept.trans (.modifyGroup rfl rfl)
    (State.SectionsKept.foldl (fun s k => s.queueSeam_sectionsKept g k) _ _)) (State.testJoined_sectionsKept _ _ _)) (.refl s)

/-- The state in which the seams of a changed section are reset, the queue refilled and the height recomputed (R103). -/
def State.reseamed (s : State) (g : GroupId) (k : Nat) : State :=
  (((s.resetSeam g k).resetSeam g (k + 1)).refillQueue).recomputeHeight g

theorem State.reseamed_sectionsKept (s : State) (g : GroupId) (k : Nat) : s.SectionsKept (s.reseamed g k) :=
  (((s.resetSeam_resets g k).kept.trans (State.resetSeam_resets _ g (k + 1)).kept).trans (State.refillQueue_refills _).kept).trans
    (State.recomputeHeight_sectionsKept _ g)

theorem State.sectionChanged_sectionsKept (b s : State) (g : GroupId) (k : Nat) (c : StaleCause) :
    s.SectionsKept (b.sectionChanged s g k c) :=
  ((s.reseamed_sectionsKept g k).trans (State.ungather_sectionsKept _ _ _ _ _)).trans (State.testJoining_sectionsKept _ _ _)

theorem State.recomputeHeight_remosaics (s : State) (g : GroupId) : s.Remosaics (s.recomputeHeight g) :=
  s.modifyGroup_remosaics g _

theorem State.reseamed_remosaics (s : State) (g : GroupId) (k : Nat) : s.Remosaics (s.reseamed g k) :=
  (((s.resetSeam_remosaics g k).trans (State.resetSeam_remosaics _ g (k + 1))).trans (State.refillQueue_remosaics _)).trans
    (State.recomputeHeight_remosaics _ g)

/-- The group with another height and other sections. -/
theorem State.group_reseamed (s : State) (g : GroupId) (k : Nat) (h : GroupId) :
    ∃ height sections, (s.reseamed g k).group h = { s.group h with height := height, sections := sections } := by
  have hbefore : ((((s.resetSeam g k).resetSeam g (k + 1)).refillQueue).group h)
      = { s.group h with sections := (((s.resetSeam g k).resetSeam g (k + 1)).refillQueue.group h).sections } := by
    rw [(State.refillQueue_refills _).group h, (State.resetSeam_resets _ g (k + 1)).group h, (s.resetSeam_resets g k).group h]
  unfold State.reseamed State.recomputeHeight
  rw [State.modifyGroup_eq, State.group_setGroup]
  split
  · next hg =>
    subst hg
    rw [hbefore]
    exact ⟨_, _, rfl⟩
  · rw [hbefore]
    exact ⟨(s.group h).height, _, rfl⟩

theorem State.seam_recomputeHeight (s : State) (g h : GroupId) (j : Nat) : (s.recomputeHeight g).seam h j = s.seam h j := by
  refine State.seam_congr ?_ j
  unfold State.recomputeHeight
  rw [State.modifyGroup_eq, State.group_setGroup]
  split
  · subst_vars; rfl
  · rfl

@[simp] theorem State.seamQueue_recomputeHeight (s : State) (g : GroupId) : (s.recomputeHeight g).seamQueue = s.seamQueue := rfl
@[simp] theorem State.engine_recomputeHeight (s : State) (g : GroupId) : (s.recomputeHeight g).engine = s.engine := rfl

/-- The recomputed height is that of the sections (R104). -/
theorem State.height_recomputeHeight (s : State) (g : GroupId) : ((s.recomputeHeight g).group g).height
    = ((s.recomputeHeight g).heightOf ((s.recomputeHeight g).group g).sections).toNat := by
  unfold State.recomputeHeight
  simp only [State.modifyGroup_eq, State.group_setGroup_self]
  rw [State.heightFrom_eq, Int.zero_add]
  rfl

/-- The seams that touch a changed section have no result, no job and no search (R103). -/
theorem State.reseamed_touching (s : State) (g : GroupId) (k : Nat) {j : Nat} {m : Seam} (hm : s.seam g j = some m)
    (hj : j = k ∨ j = k + 1) :
    (s.reseamed g k).seam g j = some m.cleared ∧ (g, j) ∉ (s.reseamed g k).seamQueue
      ∧ (m.state = .searching → (s.reseamed g k).engine = none) := by
  have h1 := s.resetSeam_resets g k
  have h2 := (s.resetSeam g k).resetSeam_resets g (k + 1)
  have h3 := ((s.resetSeam g k).resetSeam g (k + 1)).refillQueue_refills
  have hnext : (s.resetSeam g k).seam g (k + 1) = s.seam g (k + 1) := by rw [h1.seam]; simp
  have hreset : ((s.resetSeam g k).resetSeam g (k + 1)).seam g j = some m.cleared := by
    rw [h2.seam, hnext, h1.seam]
    rcases hj with rfl | rfl <;> simp [hm]
  have hcleared : m.cleared.state ≠ .waiting := by simp [Seam.cleared]
  have hseam := (h3.seam g j).of_not_waiting fun m' hm' => by
    rw [hreset] at hm'
    cases hm'
    exact hcleared
  refine ⟨?_, fun hmem => ?_, fun hs => ?_⟩
  · unfold State.reseamed
    rw [State.seam_recomputeHeight, hseam, hreset]
  · rw [State.reseamed, State.seamQueue_recomputeHeight] at hmem
    rcases h3.queue _ hmem with hmem | ⟨m', hm', hw⟩
    · obtain ⟨hmem1, hne2⟩ := h2.queue _ hmem
      obtain ⟨-, hne1⟩ := h1.queue _ hmem1
      rcases hj with rfl | rfl
      · exact hne1 (by simp [hm]) rfl
      · exact hne2 (by simp [hnext, hm]) rfl
    · rw [hreset] at hm'
      cases hm'
      exact hcleared hw
  · have hengine : ((s.resetSeam g k).resetSeam g (k + 1)).engine = none := by
      rcases hj with rfl | rfl
      · rcases h2.engine.1 with he | he
        · rw [he]; exact h1.engine.2 m hm hs
        · exact he
      · exact h2.engine.2 m (hnext.trans hm) hs
    rw [State.reseamed, State.engine_recomputeHeight, h3.engine, hengine]

/-- Every other seam is carried (R106). -/
theorem State.reseamed_other (s : State) (g : GroupId) (k : Nat) {h : GroupId} {j : Nat} (hj : h = g → j ≠ k ∧ j ≠ k + 1) :
    SeamCarried (s.seam h j) ((s.reseamed g k).seam h j) := by
  have h1 := s.resetSeam_resets g k
  have h2 := (s.resetSeam g k).resetSeam_resets g (k + 1)
  have h3 := ((s.resetSeam g k).resetSeam g (k + 1)).refillQueue_refills
  have hkeep : ((s.resetSeam g k).resetSeam g (k + 1)).seam h j = s.seam h j := by
    rw [h2.seam, if_neg fun e => (hj e.1).2 e.2, h1.seam, if_neg fun e => (hj e.1).1 e.2]
  have hcarried := h3.seam h j
  rw [hkeep] at hcarried
  unfold State.reseamed
  rwa [State.seam_recomputeHeight]

/-- Without a settled frame in every section the group does not leave GATHERING (R102). -/
theorem State.testJoining_of_unsettled {b s : State} {g : GroupId} (h : (s.group g).sections.all s.sectionSettled = false) :
    b.testJoining s g = s := by
  simp [State.testJoining, h]

/-- What the return to GATHERING leaves: the fields of the state but the group's state and stamp, and MOSAIC_STALE for a
JOINED group (R103). -/
theorem State.ungather_spec {b s : State} {g : GroupId} (k : Nat) (c : StaleCause) (hdef : (s.group g).state ≠ .undefined)
    (hstamp : (b.group g).stamp = (s.group g).stamp) :
    (b.ungather s g k c).group g = { s.group g with
        state := .gathering
        stamp := if (s.group g).state = .gathering then (s.group g).stamp else next16 (s.group g).stamp }
      ∧ (b.ungather s g k c).frames = s.frames ∧ (b.ungather s g k c).seamQueue = s.seamQueue
      ∧ (b.ungather s g k c).engine = s.engine
      ∧ ((s.group g).state = .joined → ∀ n, (s.client n).levels[(11 : Fin 16)] ≠ 0 →
          (b.ungather s g k c).hasFiled n (.group g) (.mosaicStale k c)) := by
  have henter : (b.enterGroup s g .gathering).group g
      = { s.group g with state := .gathering, stamp := next16 (s.group g).stamp } := by
    simp [State.enterGroup, hstamp]
  unfold State.ungather
  cases hs : (s.group g).state with
  | undefined => exact absurd hs hdef
  | gathering => exact ⟨by simp [← hs], rfl, rfl, rfl, by simp⟩
  | joining => exact ⟨by simpa using henter, rfl, rfl, rfl, by simp⟩
  | joined =>
    refine ⟨?_, ?_, ?_, ?_, fun _ n hn => State.raise_hasFiled (s := b.enterGroup s g .gathering) _ hn⟩
    · simpa [State.raise_eq, State.group] using henter
    all_goals simp [State.raise_eq, State.enterGroup]

/-- A changed section takes its group back to GATHERING, with the effects of R103, where a section has no settled frame. -/
theorem State.sectionChanged_regathers {b s : State} {g : GroupId} (k : Nat) (c : StaleCause)
    (hdef : (s.group g).state ≠ .undefined) (hstamp : (b.group g).stamp = (s.group g).stamp)
    (hunsettled : (s.group g).sections.all s.sectionSettled = false) :
    s.regathers (b.sectionChanged s g k c) g k c := by
  obtain ⟨height, sections, hgroup⟩ := s.group_reseamed g k g
  have hstate : ((s.reseamed g k).group g).state = (s.group g).state := by rw [hgroup]
  have hstamp' : ((s.reseamed g k).group g).stamp = (s.group g).stamp := by rw [hgroup]
  obtain ⟨hugroup, huframes, huqueue, huengine, htold⟩ := State.ungather_spec (b := b) (s := s.reseamed g k) k c
    (by rw [hstate]; exact hdef) (hstamp.trans hstamp'.symm)
  have hkept := (s.reseamed_sectionsKept g k).trans (State.ungather_sectionsKept b _ g k c)
  have hchanged : b.sectionChanged s g k c = b.ungather (s.reseamed g k) g k c :=
    State.testJoining_of_unsettled ((hkept.all_settled g).trans hunsettled)
  rw [hchanged]
  have hsections : ((b.ungather (s.reseamed g k) g k c).group g).sections = ((s.reseamed g k).group g).sections := by rw [hugroup]
  refine ⟨by rw [hugroup], hkept.drum g, ?_, ?_, fun j m hm hj => ?_, fun j m hm hk hk' => ?_, fun hjoined n hn => ?_⟩
  · rw [hugroup, hstamp', hstate]
  · rw [hsections, State.heightOf_congr huframes, hugroup]
    dsimp only
    rw [State.reseamed]
    exact State.height_recomputeHeight _ g
  · obtain ⟨hseam, hqueue, hengine⟩ := s.reseamed_touching g k hm hj
    rw [State.seam_congr hsections, huqueue, huengine]
    exact ⟨hseam, hqueue, hengine⟩
  · rw [State.seam_congr hsections]
    rcases s.reseamed_other g k (fun _ => ⟨hk, hk'⟩) with h | ⟨m', hm', hw, h⟩
    · exact .inl (h.trans hm)
    · rw [hm] at hm'
      cases hm'
      exact .inr ⟨hw, h⟩
  · refine htold (hstate.trans hjoined) n ?_
    rw [(s.reseamed_remosaics g k).notices.levels]
    exact hn

end Sys2Proof.Machine
end

section
/-! SUPPORT. A section that takes a frame (R100): what its group, the frames and the RETAIN holds become. -/

namespace Sys2Proof.Machine

/-! ### A group that only the refilling of the queue touches -/

/-- From `s` to `t` the group keeps state, drum class and stamp, and its seams but for WAITING ones that have been queued. -/
structure State.GroupCarried (s t : State) (g : GroupId) : Prop where
  state : (t.group g).state = (s.group g).state
  drum  : (t.group g).drum = (s.group g).drum
  stamp : (t.group g).stamp = (s.group g).stamp
  seam  : ∀ k, SeamCarried (s.seam g k) (t.seam g k)

theorem State.GroupCarried.refl (s : State) (g : GroupId) : s.GroupCarried s g := ⟨rfl, rfl, rfl, fun _ => .refl _⟩

theorem State.GroupCarried.trans {s t u : State} {g : GroupId} (h : s.GroupCarried t g) (k : t.GroupCarried u g) :
    s.GroupCarried u g :=
  ⟨k.state.trans h.state, k.drum.trans h.drum, k.stamp.trans h.stamp, fun j => (h.seam j).trans (k.seam j)⟩

/-- A change of none of the groups. -/
theorem State.GroupCarried.of_eq {s t : State} (h : t.groups = s.groups) (g : GroupId) : s.GroupCarried t g := by
  have hg : t.group g = s.group g := by simp [State.group, h]
  exact ⟨by rw [hg], by rw [hg], by rw [hg], fun k => .inl (State.seam_congr (by rw [hg]) k)⟩

/-- What a later change of a section does to the group as it was carried, it does to the group as it was. -/
theorem State.regathers_of_carried {s u t : State} {g : GroupId} {k : Nat} {c : StaleCause} (h : s.GroupCarried u g)
    (hl : ∀ n, (u.client n).levels = (s.client n).levels) (r : u.regathers t g k c) : s.regathers t g k c := by
  obtain ⟨hstate, hdrum, hstamp, hheight, htouching, hother, htold⟩ := r
  refine ⟨hstate, hdrum.trans h.drum, ?_, hheight, fun j m hm hj => ?_, fun j m hm hk hk' => ?_, fun hj n hn => ?_⟩
  · rw [hstamp, h.state, h.stamp]
  · rcases h.seam j with hsame | ⟨m', hm', hw, hqueued⟩
    · exact htouching j m (hsame.trans hm) hj
    · rw [hm] at hm'
      cases hm'
      obtain ⟨hcleared, hqueue, -⟩ := htouching j _ hqueued hj
      exact ⟨hcleared, hqueue, fun hs => by rw [hs] at hw; cases hw⟩
  · rcases h.seam j with hsame | ⟨m', hm', hw, hqueued⟩
    · exact hother j m (hsame.trans hm) hk hk'
    · rw [hm] at hm'
      cases hm'
      rcases hother j _ hqueued hk hk' with hsame | ⟨hw', -⟩
      · exact .inr ⟨hw, hsame⟩
      · cases hw'
  · exact htold (h.state.trans hj) n (by rw [hl]; exact hn)

/-- What has become of the group does not change when a notice of another kind is raised. -/
theorem State.regathers.raise {s t : State} {g : GroupId} {k : Nat} {c : StaleCause} (r : s.regathers t g k c) (o : Origin)
    {d : NoticeDetail} (hd : (11 : Fin 16) ≠ d.kindIndex) : s.regathers (t.raise o d) g k c := by
  obtain ⟨hstate, hdrum, hstamp, hheight, htouching, hother, htold⟩ := r
  rw [State.raise_eq]
  refine ⟨hstate, hdrum, hstamp, hheight, htouching, hother, fun hj n hn => ?_⟩
  have hfiled : (t.raise o d).hasFiled n (.group g) (.mosaicStale k c) := State.hasFiled.raise (htold hj n hn) (.inl hd)
  rwa [State.raise_eq] at hfiled

theorem State.group_enterGroup_of_ne {b s : State} {g h : GroupId} (hne : h ≠ g) (st : GroupState) :
    (b.enterGroup s g st).group h = s.group h := by
  simp [State.enterGroup, State.group_setGroup, hne]

theorem State.group_ungather_of_ne {b s : State} {g h : GroupId} (hne : h ≠ g) (k : Nat) (c : StaleCause) :
    (b.ungather s g k c).group h = s.group h := by
  unfold State.ungather
  split <;> simp [State.group_enterGroup_of_ne hne]

theorem State.group_modifySeam_of_ne {s : State} {g h : GroupId} (hne : h ≠ g) (k : Nat) (f : Seam → Seam) :
    (s.modifySeam g k f).group h = s.group h := by
  simp [State.modifySeam, State.group_setGroup, hne]

theorem State.group_queueSeam_of_ne {s : State} {g h : GroupId} (hne : h ≠ g) (k : Nat) : (s.queueSeam g k).group h = s.group h := by
  unfold State.queueSeam
  split
  · rfl
  · split
    · rfl
    · split
      · exact State.group_modifySeam_of_ne hne _ _
      · exact State.group_modifySeam_of_ne hne _ _

theorem State.group_testJoining_of_ne {b s : State} {g h : GroupId} (hne : h ≠ g) : (b.testJoining s g).group h = s.group h := by
  have hqueued : ∀ (l : List Nat) (u : State), (l.foldl (fun s k => s.queueSeam g k) u).group h = u.group h := fun l => by
    induction l with
    | nil => exact fun _ => rfl
    | cons k l ih => exact fun u => (ih _).trans (State.group_queueSeam_of_ne hne k)
  have hjoined : ∀ u : State, (b.testJoined u g).group h = u.group h := fun u => by
    unfold State.testJoined
    split
    · rw [State.group_raise, State.group_enterGroup_of_ne hne]
    · rfl
  unfold State.testJoining
  split
  · rw [hjoined, hqueued, State.group_enterGroup_of_ne hne]
  · rfl

/-- A section that is changed in one group leaves every other but for the queue's refilling. -/
theorem State.sectionChanged_carried (b s : State) {g h : GroupId} (hne : h ≠ g) (k : Nat) (c : StaleCause) :
    s.GroupCarried (b.sectionChanged s g k c) h := by
  have hgroup : (b.sectionChanged s g k c).group h = (s.reseamed g k).group h := by
    show (b.testJoining (b.ungather (s.reseamed g k) g k c) g).group h = _
    rw [State.group_testJoining_of_ne hne, State.group_ungather_of_ne hne]
  obtain ⟨height, sections, hbefore⟩ := s.group_reseamed g k h
  refine ⟨by rw [hgroup, hbefore], by rw [hgroup, hbefore], by rw [hgroup, hbefore], fun j => ?_⟩
  rw [State.seam_congr (congrArg Group.sections hgroup)]
  exact s.reseamed_other g k fun e => absurd e hne

/-! ### Frames that come and go in sections -/

/-- A frame that has lost its membership, and with it the holds of the group's RETAIN cursors (R153). -/
theorem State.frame_clearMembership (s : State) (g : GroupId) (f q : FrameId) : (s.clearMembership g f).frame q =
    if q = f then ({ s.frame f with mosaic := none } : Frame).withRetain (fun c => (s.cursor c).retainsGroup g) false
    else s.frame q := by
  unfold State.clearMembership
  rw [State.retainFor_eq, State.frame_setFrame]
  split
  · rw [State.modifyFrame_eq, State.frame_setFrame_self]
    rfl
  · next h => rw [State.modifyFrame_eq, State.frame_setFrame, if_neg h]

theorem State.groups_clearMembership (s : State) (g : GroupId) (f : FrameId) : (s.clearMembership g f).groups = s.groups := by
  unfold State.clearMembership
  rw [State.retainFor_eq]
  rfl

theorem State.sectionFrame_congr {s t : State} (h : t.groups = s.groups) (g : GroupId) (k : Nat) :
    t.sectionFrame g k = s.sectionFrame g k := by
  simp [State.sectionFrame, State.group, h]

theorem State.sectionFrame_setSectionFrame (s : State) (g h : GroupId) (k j : Nat) (f : Option FrameId) :
    (s.setSectionFrame g k f).sectionFrame h j =
      if h = g ∧ j = k then (s.group g).sections[k]?.bind (fun _ => f) else s.sectionFrame h j := by
  simp only [State.sectionFrame, State.setSectionFrame, State.modifyGroup_eq, State.group_setGroup]
  by_cases hg : h = g
  · subst hg
    simp only [if_true, true_and, List.getElem?_modify]
    by_cases hj : j = k
    · subst hj
      simp [Option.bind_map]
    · simp [hj, Ne.symm hj]
  · simp [hg]

theorem State.setSectionFrame_carried (s : State) (g h : GroupId) (k : Nat) (f : Option FrameId) :
    s.GroupCarried (s.setSectionFrame g k f) h := by
  by_cases hg : h = g
  · subst hg
    refine ⟨by simp [State.setSectionFrame], by simp [State.setSectionFrame], by simp [State.setSectionFrame], fun j => .inl ?_⟩
    simp only [State.seam, State.setSectionFrame, State.modifyGroup_eq, State.group_setGroup_self, List.getElem?_modify]
    cases (s.group h).sections[j]? with
    | none => simp
    | some x => by_cases hj : k = j <;> simp [hj]
  · have hgroup : (s.setSectionFrame g k f).group h = s.group h := by simp [State.setSectionFrame, State.group_setGroup, hg]
    exact ⟨by rw [hgroup], by rw [hgroup], by rw [hgroup], fun j => .inl (State.seam_congr (by rw [hgroup]) j)⟩

theorem State.getElem?_setSectionFrame_isSome (s : State) (g h : GroupId) (k j : Nat) (f : Option FrameId) :
    ((s.setSectionFrame g k f).group h).sections[j]?.isSome = (s.group h).sections[j]?.isSome := by
  simp only [State.setSectionFrame, State.modifyGroup_eq, State.group_setGroup]
  split
  · subst_vars; simp [List.getElem?_modify]
  · rfl

/-- The frames after one has left its section. -/
theorem State.frame_leaveSection (b s : State) (f q : FrameId) (g : GroupId) (k : Nat) (c : StaleCause) :
    (b.leaveSection s f g k c).frame q =
      if q = f then ({ s.frame f with mosaic := none } : Frame).withRetain (fun d => (s.cursor d).retainsGroup g) false
      else s.frame q := by
  unfold State.leaveSection
  rw [(State.sectionChanged_sectionsKept _ _ _ _ _).frame, State.frame_clearMembership]
  rfl

/-- The bound frames of sections after one has left its own. -/
theorem State.sectionFrame_leaveSection (b s : State) (f : FrameId) (g h : GroupId) (k j : Nat) (c : StaleCause) :
    (b.leaveSection s f g k c).sectionFrame h j = if h = g ∧ j = k then none else s.sectionFrame h j := by
  unfold State.leaveSection
  rw [(State.sectionChanged_sectionsKept _ _ _ _ _).sectionFrame, State.sectionFrame_congr (State.groups_clearMembership _ _ _),
    State.sectionFrame_setSectionFrame]
  split
  · cases (s.group g).sections[k]? <;> rfl
  · rfl

theorem State.getElem?_leaveSection_isSome (b s : State) (f : FrameId) (g h : GroupId) (k j : Nat) (c : StaleCause) :
    ((b.leaveSection s f g k c).group h).sections[j]?.isSome = (s.group h).sections[j]?.isSome := by
  have hkept := congrArg Option.isSome
    ((State.sectionChanged_sectionsKept b ((s.setSectionFrame g k none).clearMembership g f) g k c).getElem? h j)
  simp only [Option.isSome_map] at hkept
  refine hkept.trans ?_
  rw [show ((s.setSectionFrame g k none).clearMembership g f).group h = (s.setSectionFrame g k none).group h by
    simp [State.group, State.groups_clearMembership], State.getElem?_setSectionFrame_isSome]

theorem State.leaveSection_carried (b s : State) (f : FrameId) {g h : GroupId} (hne : h ≠ g) (k : Nat) (c : StaleCause) :
    s.GroupCarried (b.leaveSection s f g k c) h :=
  ((s.setSectionFrame_carried g h k none).trans (.of_eq (State.groups_clearMembership _ _ _) h)).trans
    (State.sectionChanged_carried _ _ hne _ _)

/-! ### A section takes a frame (R100) -/

/-- The frame that has left its old section is in none; the others stay. -/
theorem State.frame_leftOld (b s : State) (f : FrameId) :
    (∃ who, (b.leftOld s f).frame f = ({ s.frame f with mosaic := none } : Frame).withRetain who false)
      ∧ ∀ q, q ≠ f → (b.leftOld s f).frame q = s.frame q := by
  unfold State.leftOld
  split
  · exact ⟨⟨_, by rw [State.frame_leaveSection, if_pos rfl]⟩, fun q hq => by rw [State.frame_leaveSection, if_neg hq]⟩
  · next h =>
    refine ⟨⟨fun _ => false, ?_⟩, fun _ _ => rfl⟩
    rw [Frame.withRetain_of_none fun _ => rfl, ← h]

theorem State.sectionFrame_leftOld (b s : State) (f : FrameId) (h : GroupId) (j : Nat) :
    (b.leftOld s f).sectionFrame h j = if (s.frame f).mosaic = some (h, j) then none else s.sectionFrame h j := by
  unfold State.leftOld
  split
  · next g k hm =>
    rw [State.sectionFrame_leaveSection, hm]
    simp only [Option.some.injEq, Prod.mk.injEq, eq_comm]
  · next hm => simp [hm]

theorem State.getElem?_leftOld_isSome (b s : State) (f : FrameId) (h : GroupId) (j : Nat) :
    ((b.leftOld s f).group h).sections[j]?.isSome = (s.group h).sections[j]?.isSome := by
  unfold State.leftOld
  split
  · exact State.getElem?_leaveSection_isSome _ _ _ _ _ _ _ _
  · rfl

theorem State.leftOld_carried (b s : State) {f : FrameId} {g : GroupId} (h : ∀ k, (s.frame f).mosaic ≠ some (g, k)) :
    s.GroupCarried (b.leftOld s f) g := by
  unfold State.leftOld
  split
  · next g' k' hm => exact State.leaveSection_carried _ _ _ (fun e => h k' (by rw [hm, e])) _ _
  · exact .refl s g

/-- The frame that a section gives up for another is in none; the others stay. -/
theorem State.frame_clearedOld (s : State) (g : GroupId) (k : Nat) (q : FrameId) : (s.clearedOld g k).frame q =
    if s.sectionFrame g k = some q then
      ({ s.frame q with mosaic := none } : Frame).withRetain (fun c => (s.cursor c).retainsGroup g) false
    else s.frame q := by
  unfold State.clearedOld
  split
  · next old h =>
    rw [State.frame_clearMembership, h]
    by_cases hq : q = old
    · rw [if_pos hq, hq, if_pos rfl]
    · rw [if_neg hq, if_neg fun e => hq (Option.some.inj e).symm]
  · next h => rw [h, if_neg (by simp)]

theorem State.groups_clearedOld (s : State) (g : GroupId) (k : Nat) : (s.clearedOld g k).groups = s.groups := by
  unfold State.clearedOld
  split
  · exact State.groups_clearMembership _ _ _
  · rfl

theorem Cursor.retainsGroup_of_opened {x : Cursor} {g : GroupId}
    (h : ∃ k, x.slot = .opened k ∧ k.attachment = .group g ∧ k.retain = true) : x.retainsGroup g = true := by
  obtain ⟨k, hs, ha, hr⟩ := h
  simp [Cursor.retainsGroup, Cursor.openFields, hs, ha, hr]

/-- The state just before the section that has taken a frame is changed. -/
def State.tookFrame (b s : State) (g : GroupId) (k : Nat) (f : FrameId) : State :=
  ((((b.leftOld s f).clearedOld g k).setSectionFrame g k (some f)).modifyFrame f
    (fun x => { x with mosaic := some (g, k) })).retainFor g f true

section TookFrame
variable {b s : State} {g : GroupId} {k : Nat} {f : FrameId} {x : MosaicSection}

/-- The frame that a section takes is its member, held by the group's RETAIN cursors. -/
theorem State.frame_tookFrame_self (h : (b.leftOld s f).sectionFrame g k ≠ some f) :
    ∃ who, (b.tookFrame s g k f).frame f = (({ s.frame f with mosaic := some (g, k) } : Frame).withRetain who false).withRetain
      (fun c => (s.cursor c).retainsGroup g) true := by
  obtain ⟨⟨who, hleft⟩, -⟩ := State.frame_leftOld b s f
  have hcursor : ∀ c, ((b.leftOld s f).clearedOld g k).cursor c = s.cursor c := fun c =>
    ((State.leftOld_remosaics b s f).trans (State.clearedOld_remosaics _ g k)).cursor c
  have hcleared : ((b.leftOld s f).clearedOld g k).frame f = (b.leftOld s f).frame f := by
    rw [State.frame_clearedOld, if_neg h]
  refine ⟨who, ?_⟩
  unfold State.tookFrame
  rw [State.retainFor_eq, State.frame_setFrame_self, State.modifyFrame_eq, State.frame_setFrame_self]
  show ({ ((b.leftOld s f).clearedOld g k).frame f with mosaic := some (g, k) } : Frame).withRetain
    (fun c => (((b.leftOld s f).clearedOld g k).cursor c).retainsGroup g) true = _
  rw [hcleared, hleft]
  simp only [hcursor]
  rfl

theorem State.frame_tookFrame_of_ne {q : FrameId} (hq : q ≠ f) : (b.tookFrame s g k f).frame q =
    if (b.leftOld s f).sectionFrame g k = some q then
      ({ s.frame q with mosaic := none } : Frame).withRetain (fun c => (s.cursor c).retainsGroup g) false
    else s.frame q := by
  obtain ⟨-, hleft⟩ := State.frame_leftOld b s f
  have hcursor : ∀ c, (b.leftOld s f).cursor c = s.cursor c := (State.leftOld_remosaics b s f).cursor
  unfold State.tookFrame
  rw [State.retainFor_eq, State.frame_setFrame, if_neg hq, State.modifyFrame_eq, State.frame_setFrame, if_neg hq]
  show ((b.leftOld s f).clearedOld g k).frame q = _
  rw [State.frame_clearedOld, hleft q hq]
  simp only [hcursor]

theorem State.groups_tookFrame :
    (b.tookFrame s g k f).groups = (((b.leftOld s f).clearedOld g k).setSectionFrame g k (some f)).groups := by
  unfold State.tookFrame
  rw [State.retainFor_eq]
  rfl

theorem State.sectionFrame_tookFrame (hx : (s.group g).sections[k]? = some x) (h : GroupId) (j : Nat) :
    (b.tookFrame s g k f).sectionFrame h j =
      if h = g ∧ j = k then some f else if (s.frame f).mosaic = some (h, j) then none else s.sectionFrame h j := by
  have hsome : (((b.leftOld s f).clearedOld g k).group g).sections[k]?.isSome = true := by
    rw [show ((b.leftOld s f).clearedOld g k).group g = (b.leftOld s f).group g by simp [State.group, State.groups_clearedOld],
      State.getElem?_leftOld_isSome, hx]
    rfl
  obtain ⟨y, hy⟩ := Option.isSome_iff_exists.mp hsome
  rw [State.sectionFrame_congr State.groups_tookFrame, State.sectionFrame_setSectionFrame, hy,
    State.sectionFrame_congr (State.groups_clearedOld _ g k), State.sectionFrame_leftOld]
  rfl

theorem State.tookFrame_carried (h : ∀ j, (s.frame f).mosaic ≠ some (g, j)) : s.GroupCarried (b.tookFrame s g k f) g :=
  (((State.leftOld_carried b s h).trans (.of_eq (State.groups_clearedOld _ g k) g)).trans
    (State.setSectionFrame_carried _ g g k (some f))).trans (.of_eq rfl g) |>.trans (.of_eq State.groups_tookFrame g)

theorem State.tookFrame_remosaics : s.Remosaics (b.tookFrame s g k f) :=
  (((State.leftOld_remosaics b s f).trans (State.clearedOld_remosaics _ g k)).trans (State.modifyGroup_remosaics _ g _)).trans
    ((State.Remosaics.setFrame ⟨_, _, rfl⟩).trans (State.retainFor_remosaics _ g f true))

end TookFrame

/-- A section of a defined group takes a frame that is not settled: what R100, R103 and R153 say of it, and of the other
frames. -/
theorem State.takeFrame_took {s : State} {g : GroupId} {k : Nat} {f : FrameId} {x : MosaicSection}
    (hx : (s.group g).sections[k]? = some x) (hne : x.frame ≠ some f) (hmember : (s.frame f).mosaic ≠ some (g, k))
    (hdef : (s.group g).state ≠ .undefined) (hf : (s.frame f).state.isSettled = false) :
    s.sectionTook (s.takeFrame s g k f) f g k
      ∧ ∀ q, q ≠ f → ∃ r, (s.takeFrame s g k f).frame q = { s.frame q with
          pins := { (s.frame q).pins with retain := r }
          mosaic := if x.frame = some q then none else (s.frame q).mosaic } := by
  have hframe : s.sectionFrame g k = x.frame := by simp [State.sectionFrame, hx]
  have hleft : (s.leftOld s f).sectionFrame g k = x.frame := by
    rw [State.sectionFrame_leftOld, if_neg hmember, hframe]
  have htake : s.takeFrame s g k f = s.sectionChanged (s.tookFrame s g k f) g k .newFrame :=
    State.takeFrame_eq (by rw [hframe]; exact hne)
  have hkept := State.sectionChanged_sectionsKept s (s.tookFrame s g k f) g k .newFrame
  obtain ⟨who, hself⟩ := State.frame_tookFrame_self (b := s) (s := s) (g := g) (k := k) (f := f) (by rw [hleft]; exact hne)
  have hother : ∀ q, q ≠ f → (s.tookFrame s g k f).frame q =
      if x.frame = some q then
        ({ s.frame q with mosaic := none } : Frame).withRetain (fun c => (s.cursor c).retainsGroup g) false
      else s.frame q := fun q hq => by
    rw [State.frame_tookFrame_of_ne hq, hleft]
  rw [htake]
  refine ⟨⟨?_, ?_, fun h j hold hne' => ?_, fun c hc => ?_, fun q hq hold => ?_, fun hnone => ?_⟩, fun q hq => ?_⟩
  · rw [hkept.sectionFrame, State.sectionFrame_tookFrame hx, if_pos ⟨rfl, rfl⟩]
  · rw [hkept.frame, hself]
    rfl
  · rw [hkept.sectionFrame, State.sectionFrame_tookFrame hx, if_neg fun e => hne' (Prod.ext e.1 e.2), if_pos hold]
  · rw [hkept.frame, hself]
    show (Frame.withRetain _ _ true).pins.retain[c.val] = true
    rw [Frame.retain_withRetain, if_pos (Cursor.retainsGroup_of_opened hc)]
  · have hq' : x.frame = some q := hframe.symm.trans hold
    rw [hkept.frame, hother q hq, if_pos hq']
    refine ⟨rfl, fun c hc => ?_⟩
    show (Frame.withRetain _ _ false).pins.retain[c.val] = false
    rw [Frame.retain_withRetain, if_pos (Cursor.retainsGroup_of_opened hc)]
  · have hcarried := State.tookFrame_carried (b := s) (k := k) hnone
    refine State.regathers_of_carried hcarried State.tookFrame_remosaics.notices.levels
      (State.sectionChanged_regathers k .newFrame (by rw [hcarried.state]; exact hdef) hcarried.stamp.symm ?_)
    have hbound : (s.tookFrame s g k f).sectionFrame g k = some f := by
      rw [State.sectionFrame_tookFrame hx, if_pos ⟨rfl, rfl⟩]
    obtain ⟨y, hy, hyf⟩ := Option.bind_eq_some_iff.mp hbound
    refine List.all_eq_false.mpr ⟨y, List.mem_of_getElem? hy, ?_⟩
    simp only [State.sectionSettled, hyf, Option.any_some, hself]
    exact Bool.not_eq_true _ ▸ hf
  · rw [hkept.frame, hother q hq]
    split
    · exact ⟨_, rfl⟩
    · exact ⟨_, rfl⟩

end Sys2Proof.Machine
end

section
/-! SUPPORT. The section a bound frame matches (R100), how a binding is handed on (R17, R25), and a START that joins or rejoins a
pass (R9, R10). -/

namespace Sys2Proof.Machine

/-! ### The matching section (R100) -/

theorem mem_allGroups (g : GroupId) : g ∈ allGroups := by
  revert g
  decide

/-- The section found for an entry names it. -/
theorem State.sectionOfEntry_eq_some {s : State} {e : EntryId} {g : GroupId} {k : Nat} (h : s.sectionOfEntry e = some (g, k)) :
    ∃ x, (s.group g).sections[k]? = some x ∧ x.entry = e := by
  obtain ⟨g', -, hg'⟩ := List.exists_of_findSome?_eq_some h
  obtain ⟨k', hk', hpair⟩ := Option.map_eq_some_iff.mp hg'
  cases hpair
  obtain ⟨hlt, htest, -⟩ := List.findIdx?_eq_some_iff_getElem.mp hk'
  exact ⟨_, List.getElem?_eq_getElem hlt, by simpa using htest⟩

/-- No section names an entry for which none is found. -/
theorem State.sectionOfEntry_eq_none_iff (s : State) (e : EntryId) :
    s.sectionOfEntry e = none ↔ ∀ g, ∀ y ∈ (s.group g).sections, y.entry ≠ e := by
  simp [State.sectionOfEntry, mem_allGroups, List.findIdx?_eq_none_iff]

/-- A section that alone names an entry is the one found for it. -/
theorem State.sectionOfEntry_of_unique {s : State} {g : GroupId} {k : Nat} {x : MosaicSection}
    (hx : (s.group g).sections[k]? = some x)
    (hunique : ∀ g' k' y, (s.group g').sections[k']? = some y → y.entry = x.entry → g' = g ∧ k' = k) :
    s.sectionOfEntry x.entry = some (g, k) := by
  cases h : s.sectionOfEntry x.entry with
  | none => exact absurd rfl ((s.sectionOfEntry_eq_none_iff x.entry).mp h g x (List.mem_of_getElem? hx))
  | some p =>
    obtain ⟨g', k'⟩ := p
    obtain ⟨y, hy, hye⟩ := State.sectionOfEntry_eq_some h
    obtain ⟨rfl, rfl⟩ := hunique g' k' y hy hye
    rfl

/-- The section found for a frame's entry matches it (R100). -/
theorem State.matchingSection_eq_some {s : State} {e : EntryId} {g : GroupId} {k : Nat}
    (h : s.matchingSection e = some (g, k)) : ∃ x, (s.group g).sections[k]? = some x ∧ s.sectionMatches e x := by
  unfold State.matchingSection at h
  cases hown : s.sectionOfEntry e with
  | some p =>
    rw [hown] at h
    obtain rfl := Option.some.inj h
    obtain ⟨x, hx, he⟩ := State.sectionOfEntry_eq_some hown
    exact ⟨x, hx, .inl he⟩
  | none =>
    rw [hown] at h
    obtain ⟨root, hroot, hfound⟩ := Option.bind_eq_some_iff.mp h
    obtain ⟨x, hx, rfl⟩ := State.sectionOfEntry_eq_some hfound
    exact ⟨x, hx, .inr ⟨(s.sectionOfEntry_eq_none_iff e).mp hown, hroot⟩⟩

/-- A section that matches a frame's entry is the one found, where no other names its entry. -/
theorem State.matchingSection_of_matches {s : State} {e : EntryId} {g : GroupId} {k : Nat} {x : MosaicSection}
    (hx : (s.group g).sections[k]? = some x) (hmatch : s.sectionMatches e x)
    (hunique : ∀ g' k' y, (s.group g').sections[k']? = some y → y.entry = x.entry → g' = g ∧ k' = k) :
    s.matchingSection e = some (g, k) := by
  have hfound := State.sectionOfEntry_of_unique hx hunique
  unfold State.matchingSection
  rcases hmatch with rfl | ⟨hnone, hrepeat⟩
  · rw [hfound]
  · rw [(s.sectionOfEntry_eq_none_iff e).mpr hnone]
    simp [hrepeat, hfound]

theorem State.fitsSection_iff {s : State} {f : FrameId} {y : Geometry} (h : (s.frame f).geometry = some y) (g : GroupId) (k : Nat) :
    s.fitsSection g k f = true ↔ s.sectionFits g k y := by
  rw [State.fitsSection, h, Option.any_some, decide_eq_true_iff]
  rfl

/-- MU takes a bound frame into the section that matches and fits it (R100). -/
theorem State.tellBound_of_match {s : State} {f : FrameId} {y : Geometry} {b : EntryId} {g : GroupId} {k : Nat} {x : MosaicSection}
    (hy : (s.frame f).geometry = some y) (hb : (s.frame f).entry = some b) (hx : (s.group g).sections[k]? = some x)
    (hmatch : s.sectionMatches b x) (hfit : s.sectionFits g k y)
    (hunique : ∀ g' k' z, (s.group g').sections[k']? = some z → z.entry = x.entry → g' = g ∧ k' = k) :
    s.tellBound f = s.takeFrame s g k f := by
  unfold State.tellBound
  rw [hb, Option.bind_some, State.matchingSection_of_matches hx hmatch hunique]
  exact if_pos ((State.fitsSection_iff hy g k).mpr hfit)

/-- The section that matches and fits a bound frame, if there is one, has it already. -/
def State.sectionHas (s : State) (f : FrameId) : Prop :=
  ∀ g k, (s.frame f).entry.bind s.matchingSection = some (g, k) → s.fitsSection g k f = true → s.sectionFrame g k = some f

/-- MU then leaves everything (R100). -/
theorem State.tellBound_of_sectionHas {s : State} {f : FrameId} (h : s.sectionHas f) : s.tellBound f = s := by
  unfold State.tellBound
  split
  · next g k hfound =>
    split
    · next hfit => exact if_pos (h g k hfound hfit)
    · rfl
  · rfl

theorem State.sectionHas_of_kept {s : State} {f : FrameId} {y : Geometry} (hy : (s.frame f).geometry = some y)
    (hkept : ∀ b g k x, (s.frame f).entry = some b → (s.group g).sections[k]? = some x → s.sectionMatches b x →
      s.sectionFits g k y → x.frame = some f) : s.sectionHas f := by
  intro g k hfound hfit
  obtain ⟨b, hb, hmatching⟩ := Option.bind_eq_some_iff.mp hfound
  obtain ⟨x, hx, hmatch⟩ := State.matchingSection_eq_some hmatching
  simp [State.sectionFrame, hx, hkept b g k x hb hx hmatch ((State.fitsSection_iff hy g k).mp hfit)]

theorem State.SectionsKept.sectionHas {s t : State} {f : FrameId} (h : s.SectionsKept t) (hs : s.sectionHas f) :
    t.sectionHas f := by
  intro g k hfound hfit
  rw [h.frame, show t.matchingSection = s.matchingSection from funext h.matchingSection] at hfound
  rw [h.fitsSection] at hfit
  rw [h.sectionFrame]
  exact hs g k hfound hfit

/-! ### Handing a binding on (R17, R25) -/

theorem State.handOn_eq (s : State) (i : SourceId) (f : FrameId) (kind : BindingKind) :
    s.handOn i f kind true false = ((s.bindSource i f).tellBound f).raise (.frame f) (.frameBound i kind) := rfl

theorem State.bindSource_eq {s : State} {f : FrameId} {g : Geometry} (h : (s.frame f).geometry = some g) (i : SourceId) :
    s.bindSource i f = s.setSource i ((s.source i).bound { frame := f, pass := (s.frame f).pass, geometry := g }) := by
  unfold State.bindSource
  rw [h]
  rfl

theorem State.bindSource_restKept (s : State) (i : SourceId) (f : FrameId) : s.RestKept (s.bindSource i f) := by
  unfold State.bindSource
  split
  · exact .refl s
  · exact .setSource (.inl (by simp [Source.bound]))

theorem State.handOn_restKept (s : State) (i : SourceId) (f : FrameId) (kind : BindingKind) :
    s.RestKept (s.handOn i f kind true false) := by
  rw [State.handOn_eq]
  exact ((s.bindSource_restKept i f).trans (State.tellBound_remosaics _ f).restKept).trans (State.raise_restKept _ _ _)

/-- A scheduled START in a source that is IDLE and unbound, where its binding brings nothing to wait. -/
theorem exec_start_of_scheduled {s u : State} {i : SourceId} {frequency : Nat} {drum : DrumClass} {rate : LineRate} {e : EntryId}
    {d : EntryFields} (r : s.atRest) (hidle : (s.source i).state = .idle) (hunbound : (s.source i).binding = none)
    (hset : s.clock.isSet = true)
    (hchosen : s.chosenEntry { frequency := frequency, drum := drum, rate := rate } = some (e, d))
    (hu : (s.heard i).bindScheduled i e d = u) (hrest : (s.heard i).RestKept u) :
    exec (.start i frequency drum rate) s = .next u := by
  rw [exec_start hidle hunbound, State.bindStart_of_chosen (s := s.heard i) hset hchosen, hu,
    ((s.goodRecord_restKept i).trans hrest).closeEvent r]

/-! ### What a section's taking a frame means, seen from another state -/

/-- It depends on frame `f`'s membership, the groups, the cursors and the clients alone. -/
theorem State.sectionTook.of_eq {s u t : State} {f : FrameId} {g : GroupId} {j : Nat} (h : u.sectionTook t f g j)
    (hf : (u.frame f).mosaic = (s.frame f).mosaic) (hg : u.groups = s.groups) (hc : u.cursors = s.cursors)
    (hl : u.clients = s.clients) : s.sectionTook t f g j := by
  obtain ⟨hframe, hmember, hleft, hheld, hgone, hregathers⟩ := h
  have hcursor : ∀ c, u.cursor c = s.cursor c := fun c => by simp [State.cursor, hc]
  refine ⟨hframe, hmember, fun h k hold => hleft h k (hf.trans hold), fun c hk => hheld c (by simpa only [hcursor] using hk),
    fun q hq hold => ?_, fun hnone => ?_⟩
  · obtain ⟨hq1, hq2⟩ := hgone q hq ((State.sectionFrame_congr hg g j).trans hold)
    exact ⟨hq1, fun c hk => hq2 c (by simpa only [hcursor] using hk)⟩
  · exact State.regathers_of_carried (.of_eq hg g) (fun n => by simp [State.client, hl])
      (hregathers fun k => by rw [hf]; exact hnone k)

theorem State.sectionTook.raise {s t : State} {f : FrameId} {g : GroupId} {j : Nat} (h : s.sectionTook t f g j) (o : Origin)
    {d : NoticeDetail} (hd : (11 : Fin 16) ≠ d.kindIndex) : s.sectionTook (t.raise o d) f g j := by
  obtain ⟨hframe, hmember, hleft, hheld, hgone, hregathers⟩ := h
  refine ⟨?_, ?_, ?_, ?_, ?_, fun hnone => (hregathers hnone).raise o hd⟩ <;> rw [State.raise_eq] <;> assumption

/-! ### Joins and rejoins (R9, R10) -/

/-- The binding of a START that joins or rejoins the pass of the frame that holds its key. -/
theorem State.bindScheduled_join {s : State} {i : SourceId} {f : FrameId} {e : EntryId} {d : EntryFields} {g : Geometry}
    {now : Frame} {kind : BindingKind} (hkey : ∀ k, s.holdsKey k e d ↔ k = f) (hg : (s.frame f).geometry = some g)
    (h : (s.frame f).state = .receiving
          ∧ ((s.frame f).entry = some e
            ∨ g = { drum := d.drum, rate := d.rate, direction := d.direction, rows := d.rows })
          ∧ now = { s.frame f with joined := setMember (s.frame f).joined i true } ∧ kind = .join
        ∨ (s.frame f).state = .settling ∧ (s.frame f).entry = some e ∧ kind = .rejoin
          ∧ now = { s.frame f with
              state := .receiving, settleTimer := none, joined := setMember (s.frame f).joined i true
              stamp := next16 (s.frame f).stamp }) :
    s.bindScheduled i e d = (s.setFrame f now).handOn i f kind true false := by
  unfold State.bindScheduled
  rw [State.bindingStep_of_holder hkey]
  rcases h with ⟨hs, hjoin, rfl, rfl⟩ | ⟨hs, he, rfl, rfl⟩
  · have hjoin' : (s.frame f).entry = some e ∨ (s.frame f).geometry = some d.geometry :=
      hjoin.imp_right fun h => by rw [hg, h]; rfl
    rw [hs]
    simp only [if_pos hjoin']
    rfl
  · rw [hs]
    simp only [if_pos he]
    rfl

/-- Settles O19: the frame is joined, the source bound to it, and a section that matches and fits takes it where it has not. -/
theorem startJoinsOrRejoinsThePass : Obligations.StartJoinsOrRejoinsThePass := by
  intro i frequency drum rate f e d g s hidle hunbound r hset hchosen hkey hg stream joined now kind hcase
  have hbind := State.bindScheduled_join (s := s.heard i) (i := i) hkey hg hcase
  have hrest : (s.heard i).RestKept (((s.heard i).setFrame f now).handOn i f kind true false) :=
    (State.setFrame_restKept _ f now).trans (State.handOn_restKept _ i f kind)
  have hexec := exec_start_of_scheduled r hidle hunbound hset hchosen hbind hrest
  have hnow : now.geometry = some g ∧ now.pass = (s.frame f).pass ∧ now.mosaic = (s.frame f).mosaic
      ∧ now.entry = (s.frame f).entry ∧ now.pins = (s.frame f).pins ∧ now.state = .receiving := by
    rcases hcase with ⟨hs, -, rfl, -⟩ | ⟨-, -, -, rfl⟩
    · exact ⟨hg, rfl, rfl, rfl, rfl, hs⟩
    · exact ⟨hg, rfl, rfl, rfl, rfl, rfl⟩
  obtain ⟨hgeometry, hpass, hmosaic, hentry, hpins, hreceiving⟩ := hnow
  set u : State := (s.setFrame f now).setSource i stream with hu
  have huframe : u.frame f = now := by rw [hu, State.frame_setSource, State.frame_setFrame_self]
  have hbound : ((s.heard i).setFrame f now).bindSource i f = u := by
    rw [State.bindSource_eq (g := g) (by rw [State.frame_setFrame_self]; exact hgeometry), State.frame_setFrame_self, hpass,
      State.setFrame_setSource, State.source_setSource_self, State.setSource_setSource]
    rfl
  rw [State.handOn_eq, hbound] at hexec
  refine ⟨fun hkept => ?_, fun b h j x hb hx hmatch hfit hdef hne hmember hunique => ?_⟩
  · rw [hexec, State.tellBound_of_sectionHas (State.sectionHas_of_kept (s := u) (f := f) (y := g)
      (by rw [huframe]; exact hgeometry) fun b h j x hb => hkept b h j x (by rw [← hentry, ← huframe]; exact hb))]
  · have htell := State.tellBound_of_match (s := u) (f := f) (y := g) (b := b) (by rw [huframe]; exact hgeometry)
      (by rw [huframe, hentry]; exact hb) hx hmatch hfit hunique
    obtain ⟨htook, hother⟩ := State.takeFrame_took (s := u) hx hne (by rw [huframe, hmosaic]; exact hmember) hdef
      (by rw [huframe, hreceiving]; rfl)
    have hmoved := u.takeFrame_remosaics u h j f
    obtain ⟨m, ret, hself⟩ := hmoved.frames f
    rw [htell] at hexec
    refine ⟨_, hexec, ?_, ?_, ?_, ?_, ?_, fun q hq => ?_, fun n hn => ?_⟩
    · rw [State.source_raise, hmoved.source, hu, State.source_setSource_self]
    · rw [State.raise_memory]
      exact (u.takeFrame_moves u h j f).memory
    · obtain ⟨-, hm, -⟩ := htook
      rw [hself] at hm
      rw [State.frame_raise, hself, huframe, show m = some (h, j) from hm]
    · rw [State.frame_raise, hself, huframe, hpins]
    · exact (htook.raise (.frame f) (d := .frameBound i kind) (show (11 : Fin 16) ≠ 0 by decide)).of_eq (by rw [huframe, hmosaic]) rfl rfl rfl
    · obtain ⟨ret, hret⟩ := hother q hq
      have huq : u.frame q = s.frame q := by rw [hu, State.frame_setSource, State.frame_setFrame, if_neg hq]
      rw [State.frame_raise, hret, huq]
    · refine State.raise_hasFiled _ ?_
      rw [hmoved.notices.levels]
      exact hn

end Sys2Proof.Machine
end

section
/-! SUPPORT. Cursors that become LOST (R154), and the release and opening of a frame's view (R89, R92): what they do to cursors,
frames, views, pool and pending sets. -/

namespace Sys2Proof.Machine

theorem mem_allCursors (c : CursorId) : c ∈ allCursors := by
  revert c
  decide

/-! ### The holders of reads -/

theorem State.isSome_holder_modifyHolder (s : State) (h k : ReadHolder) (g : ReadRequest → ReadRequest) :
    ((s.modifyHolder h g).holder k).isSome = (s.holder k).isSome := by
  rw [State.modifyHolder_eq, State.holder_setHolder]
  split
  · subst_vars; exact Option.isSome_map
  · rfl

/-! ### Cursors that become LOST (R154) -/

/-- From `s` to `t` the cursors that `gone` names, all of them open, have become LOST, with their commands and CURSOR_LOST; of a
port only the response changes, and every read stays in its holder. -/
structure State.CursorsLost (s t : State) (gone : CursorId → Bool) (cause : LostCause) : Prop where
  holders : ∀ h, (t.holder h).isSome = (s.holder h).isSome
  kept    : ∀ c, gone c = false → t.cursor c = s.cursor c
  lost    : ∀ c, gone c = true → ∃ k, (s.cursor c).slot = .opened k ∧ t.cursor c = { slot := .lost k, job := none }
  tags    : ∀ n, (t.port n).tag = (s.port n).tag
  notices : s.SaysOnly [12] t
  told    : ∀ c, gone c = true → (s.client (ownerOf c)).levels[(12 : Fin 16)] ≠ 0 →
    ∃ d k, gone d = true ∧ ownerOf d = ownerOf c ∧ (s.cursor d).slot = .opened k
      ∧ t.hasFiled (ownerOf c) (.client (ownerOf c)) (lostDetail d cause k.attachment)

/-- The loss of cursors, seen from a state with the same cursors, clients and tags, and reads in the same holders. -/
theorem State.CursorsLost.of_eq {s b t : State} {gone : CursorId → Bool} {cause : LostCause} (h : b.CursorsLost t gone cause)
    (hc : b.cursors = s.cursors) (hl : b.clients = s.clients) (hp : ∀ n, (b.port n).tag = (s.port n).tag)
    (hh : ∀ k, (b.holder k).isSome = (s.holder k).isSome) : s.CursorsLost t gone cause := by
  have hcursor : ∀ c, b.cursor c = s.cursor c := fun c => by simp [State.cursor, hc]
  have hclient : ∀ n, b.client n = s.client n := fun n => by simp [State.client, hl]
  refine ⟨fun k => (h.holders k).trans (hh k), fun c hk => (h.kept c hk).trans (hcursor c), fun c hk => ?_,
    fun n => (h.tags n).trans (hp n), (State.SaysOnly.of_eq hl).trans h.notices, fun c hk hlevel => ?_⟩
  · rw [← hcursor]
    exact h.lost c hk
  · simp only [← hcursor]
    exact h.told c hk (by rw [hclient]; exact hlevel)

/-- Lost cursors bring nothing to wait for the end of the event. -/
theorem State.CursorsLost.restKept {s t : State} {gone : CursorId → Bool} {cause : LostCause} (h : s.CursorsLost t gone cause)
    (hs : t.sources = s.sources) (he : t.engine = s.engine) : s.RestKept t where
  sources i := .inr (by simp [State.source, hs])
  engine := .inl he
  holders := h.holders
  cursors c hopen := by
    cases hc : gone c with
    | false => rw [h.kept c hc] at hopen ⊢; exact ⟨hopen, rfl⟩
    | true =>
      obtain ⟨k, -, hlost⟩ := h.lost c hc
      simp [hlost, Cursor.openFields] at hopen

/-- From `s` to `t` the cursors that `gone` names have become LOST and given up their holds on frames, and nothing else has
happened. -/
structure State.Loses (s t : State) (gone : CursorId → Bool) (cause : LostCause) : Prop extends s.CursorsLost t gone cause where
  only    : t = { s with
    frames := t.frames, holders := t.holders, cursors := t.cursors, clients := t.clients, ports := t.ports }
  frames  : ∀ f, t.frame f = (s.frame f).withRetain gone false

theorem State.CursorsLost.refl (s : State) (cause : LostCause) : s.CursorsLost s (fun _ => false) cause :=
  ⟨fun _ => rfl, fun _ _ => rfl, fun _ h => (by cases h), fun _ => rfl, .refl s, fun _ h => (by cases h)⟩

theorem State.Loses.refl (s : State) (cause : LostCause) : s.Loses s (fun _ => false) cause :=
  ⟨.refl s cause, rfl, fun _ => (Frame.withRetain_of_none fun _ => rfl).symm⟩

@[simp] theorem lostDetail_kindIndex (c : CursorId) (cause : LostCause) (a : Attachment) :
    (lostDetail c cause a).kindIndex = 12 := by
  cases a <;> rfl

theorem Cursor.openFields_eq_some_iff (x : Cursor) (k : CursorFields) : x.openFields = some k ↔ x.slot = .opened k := by
  unfold Cursor.openFields
  cases x.slot <;> simp

/-- A cursor's command is cut off where it has one; its slot stays. -/
theorem State.cutJob_spec (s : State) (c : CursorId) (st : Status) :
    (s.cutJob c st = { s with cursors := (s.cutJob c st).cursors, ports := (s.cutJob c st).ports })
      ∧ (∀ d, (s.cutJob c st).cursor d = if d = c then { s.cursor c with job := none } else s.cursor d)
      ∧ ∀ n, ((s.cutJob c st).port n).tag = (s.port n).tag := by
  unfold State.cutJob
  split
  · next h =>
    refine ⟨rfl, fun d => ?_, fun _ => rfl⟩
    split
    · next hd => rw [hd, ← h]
    · rfl
  · refine ⟨rfl, fun d => ?_, fun n => ?_⟩
    · show ((s.setCursor c { s.cursor c with job := none }).cursor d) = _
      rw [State.cursor_setCursor]
    · unfold State.answer
      rw [State.port_setPort]
      split
      · subst_vars; rfl
      · rfl

theorem State.loseCursor_of_not_open {s : State} {c : CursorId} (cause : LostCause) (h : (s.cursor c).openFields = none) :
    s.loseCursor c cause = s := by
  unfold State.loseCursor
  rw [h]

/-- One more open cursor becomes LOST. -/
theorem State.Loses.snoc {s t : State} {gone : CursorId → Bool} {cause : LostCause} (h : s.Loses t gone cause) {c : CursorId}
    {k : CursorFields} (hc : gone c = false) (hk : (s.cursor c).slot = .opened k) :
    s.Loses (t.loseCursor c cause) (fun d => gone d || decide (d = c)) cause := by
  have hopen : (t.cursor c).openFields = some k := by rw [h.kept c hc, Cursor.openFields_eq_some_iff, hk]
  obtain ⟨hcutonly, hcutcursor, hcuttag⟩ := (t.unpinCursor c).cutJob_spec c .lost
  set v : State := (((t.unpinCursor c).cutJob c .lost).abandonRead (.cursor c)).modifyCursor c (fun x => { x with slot := .lost k })
    with hv
  have hlose : t.loseCursor c cause = v.raise (.client (ownerOf c)) (lostDetail c cause k.attachment) := by
    unfold State.loseCursor
    rw [hopen]
  have hvonly : v = { t with frames := v.frames, holders := v.holders, cursors := v.cursors, ports := v.ports } := by
    rw [hv, State.modifyCursor, State.abandonRead, State.modifyHolder, State.setHolder, hcutonly]
    rfl
  have hvclient : ∀ n, v.client n = t.client n := fun n => by
    unfold State.client
    rw [hvonly]
  have hvframe : ∀ f, v.frame f = (t.frame f).setRetain c false := fun f => by
    have : v.frames = (t.unpinCursor c).frames := by
      rw [hv, State.modifyCursor, State.abandonRead, State.modifyHolder, State.setHolder, hcutonly]
      rfl
    simp [State.frame, this, State.unpinCursor]
  have hvcursor : ∀ d, v.cursor d = if d = c then { slot := .lost k, job := none } else t.cursor d := fun d => by
    have habandon : ∀ e, (((t.unpinCursor c).cutJob c .lost).abandonRead (.cursor c)).cursor e
        = ((t.unpinCursor c).cutJob c .lost).cursor e := fun _ => rfl
    rw [hv, State.modifyCursor_eq, State.cursor_setCursor, habandon, habandon, hcutcursor, hcutcursor]
    split
    · simp
    · rfl
  rw [hlose]
  have hraise := State.SaysOnly.raise (kinds := [12]) v (.client (ownerOf c)) (d := lostDetail c cause k.attachment) (by simp)
  have hsays : t.SaysOnly [12] v := .of_eq (by rw [hvonly])
  refine ⟨⟨fun q => ?_, fun d hd => ?_, fun d hd => ?_, fun n => ?_, (h.notices.trans hsays).trans hraise,
    fun d hd hlevel => ?_⟩, by rw [State.raise_eq, hvonly, h.only], fun f => ?_⟩
  · have hraised : ((v.raise (.client (ownerOf c)) (lostDetail c cause k.attachment)).holder q) = v.holder q := by
      rw [State.raise_eq]
      cases q <;> rfl
    have habandoned : (v.holder q).isSome = (((t.unpinCursor c).cutJob c .lost).holder q).isSome := by
      rw [hv, State.modifyCursor_eq, State.holder_setCursor]
      exact State.isSome_holder_modifyHolder _ _ _ _
    have hcut : ((t.unpinCursor c).cutJob c .lost).holder q = t.holder q := by
      rw [hcutonly]
      cases q <;> rfl
    rw [hraised, habandoned, hcut, h.holders]
  · obtain ⟨hd1, hd2⟩ : gone d = false ∧ d ≠ c := by simpa using hd
    rw [State.cursor_raise, hvcursor, if_neg hd2, h.kept d hd1]
  · rw [State.cursor_raise, hvcursor]
    by_cases hdc : d = c
    · exact ⟨k, hdc ▸ hk, if_pos hdc⟩
    · obtain ⟨k', hk', hlost⟩ := h.lost d (by simpa [hdc] using hd)
      exact ⟨k', hk', by rw [if_neg hdc, hlost]⟩
  · have hraised : ((v.raise (.client (ownerOf c)) (lostDetail c cause k.attachment)).port n) = v.port n := by
      rw [State.raise_eq]
      rfl
    have habandoned : v.port n = ((t.unpinCursor c).cutJob c .lost).port n := rfl
    rw [hraised, habandoned, hcuttag, ← h.tags]
    rfl
  · have hvlevel : (v.client (ownerOf d)).levels[(12 : Fin 16)] ≠ 0 := by
      rw [hvclient, h.notices.levels]
      exact hlevel
    by_cases howner : ownerOf c = ownerOf d
    · refine ⟨c, k, by simp, howner, hk, ?_⟩
      rw [← howner] at hvlevel ⊢
      have hkind : ∀ i : Fin 16, i = 12 → (v.client (ownerOf c)).levels[i] ≠ 0 := by
        rintro _ rfl
        exact hvlevel
      exact State.raise_hasFiled _ (hkind _ (lostDetail_kindIndex c cause k.attachment))
    · have hdc : d ≠ c := fun e => howner (by rw [e])
      obtain ⟨e, k', he, hown, hslot, hfiled⟩ := h.told d (by simpa [hdc] using hd) hlevel
      refine ⟨e, k', by simp [he], hown, hslot, State.hasFiled.raise ?_ (.inr fun h => howner (Origin.client.inj h.symm))⟩
      unfold State.hasFiled at hfiled ⊢
      rwa [hvclient]
  · rw [State.frame_raise, hvframe, Frame.setRetain_eq, h.frames, Frame.withRetain_withRetain]

/-- The open cursors that satisfy a test become LOST. -/
theorem State.loseCursors_loses (s : State) (p : Cursor → Bool) (cause : LostCause) :
    s.Loses (s.loseCursors p cause) (fun c => p (s.cursor c) && (s.cursor c).openFields.isSome) cause := by
  have fold : ∀ l : List CursorId, l.Nodup →
      s.Loses (l.foldl (fun s c => if p (s.cursor c) then s.loseCursor c cause else s) s)
        (fun c => decide (c ∈ l) && (p (s.cursor c) && (s.cursor c).openFields.isSome)) cause := by
    intro l
    induction l using List.reverseRecOn with
    | nil => exact fun _ => by simpa using State.Loses.refl s cause
    | append_singleton l a ih =>
      intro hnodup
      obtain ⟨hl, -, hdisjoint⟩ := List.nodup_append.mp hnodup
      have ha : a ∉ l := fun hmem => hdisjoint a hmem a (List.mem_singleton.mpr rfl) rfl
      have hbefore := ih hl
      have hkept := hbefore.kept a (by simp [ha])
      rw [List.foldl_append, List.foldl_cons, List.foldl_nil, hkept]
      cases hopen : (s.cursor a).openFields with
      | none =>
        have hgone : (fun c => decide (c ∈ l ++ [a]) && (p (s.cursor c) && (s.cursor c).openFields.isSome))
            = (fun c => decide (c ∈ l) && (p (s.cursor c) && (s.cursor c).openFields.isSome)) := by
          funext c
          by_cases hc : c = a
          · simp [hc, hopen]
          · simp [hc]
        rw [hgone]
        split
        · rw [State.loseCursor_of_not_open cause (by rw [hkept, hopen])]
          exact hbefore
        · exact hbefore
      | some k =>
        by_cases hp : p (s.cursor a) = true
        · have hgone : (fun c => decide (c ∈ l ++ [a]) && (p (s.cursor c) && (s.cursor c).openFields.isSome))
              = (fun c => (decide (c ∈ l) && (p (s.cursor c) && (s.cursor c).openFields.isSome)) || decide (c = a)) := by
            funext c
            by_cases hc : c = a
            · simp [hc, hopen, hp]
            · simp [hc]
          rw [hgone, if_pos hp]
          exact hbefore.snoc (by simp [ha]) ((Cursor.openFields_eq_some_iff _ _).mp hopen)
        · have hgone : (fun c => decide (c ∈ l ++ [a]) && (p (s.cursor c) && (s.cursor c).openFields.isSome))
              = (fun c => decide (c ∈ l) && (p (s.cursor c) && (s.cursor c).openFields.isSome)) := by
            funext c
            by_cases hc : c = a
            · simp [hc, hp]
            · simp [hc]
          rw [hgone, if_neg hp]
          exact hbefore
  have hall := fold allCursors (by decide)
  simpa [mem_allCursors, State.loseCursors] using hall

theorem Cursor.onPrevious_iff (x : Cursor) (f : FrameId) :
    x.onPrevious f = true ↔ ∃ k, x.slot = .opened k ∧ k.attachment = .previous f := by
  unfold Cursor.onPrevious Cursor.openFields
  cases x.slot <;> simp

theorem Cursor.onFrame_iff (x : Cursor) (f : FrameId) :
    x.onFrame f = true ↔ ∃ k, x.slot = .opened k ∧ (k.attachment = .current f ∨ k.attachment = .previous f) := by
  unfold Cursor.onFrame Cursor.openFields
  cases x.slot <;> simp

theorem Cursor.onPrevious_and_open (x : Cursor) (f : FrameId) : (x.onPrevious f && x.openFields.isSome) = x.onPrevious f := by
  unfold Cursor.onPrevious
  cases x.openFields <;> simp

theorem Cursor.onFrame_and_open (x : Cursor) (f : FrameId) : (x.onFrame f && x.openFields.isSome) = x.onFrame f := by
  unfold Cursor.onFrame
  cases x.openFields <;> simp

end Sys2Proof.Machine
end

section
/-! SUPPORT. The release and the opening of a frame's view (R89, R92), operations that go stale (R66), and the settling of a pass
that a join overtakes (R85). -/

namespace Sys2Proof.Machine

/-! ### Reads that will find no view (R122) -/

/-- Their marks change the reads alone, and every read stays in its holder. -/
theorem State.markViewGone_spec (s : State) (f : FrameId) :
    s.markViewGone f = { s with holders := (s.markViewGone f).holders, seamHolder := (s.markViewGone f).seamHolder }
      ∧ ∀ h, ((s.markViewGone f).holder h).isSome = (s.holder h).isSome := by
  have fold : ∀ (l : List ReadHolder) (u : State), (u = { s with holders := u.holders, seamHolder := u.seamHolder }
        ∧ ∀ h, (u.holder h).isSome = (s.holder h).isSome) →
      let v := l.foldl (fun s h => s.modifyHolder h (fun r => r.whenViewGone f)) u
      v = { s with holders := v.holders, seamHolder := v.seamHolder } ∧ ∀ h, (v.holder h).isSome = (s.holder h).isSome := by
    intro l
    induction l with
    | nil => exact fun _ h => h
    | cons q l ih =>
      refine fun u ⟨honly, hholder⟩ => ih _ ⟨?_, fun h => (State.isSome_holder_modifyHolder _ _ _ _).trans (hholder h)⟩
      have hmodify : ∀ g, u.modifyHolder q g = { u with
          holders := (u.modifyHolder q g).holders, seamHolder := (u.modifyHolder q g).seamHolder } := fun g => by
        cases q <;> rfl
      exact (hmodify _).trans (by rw [honly])
  exact fold allHolders s ⟨rfl, fun _ => rfl⟩

/-! ### The release of a view (R92) -/

/-- The cursors that a release of the frame's view makes LOST. -/
def State.viewLosers (s : State) (f : FrameId) (c : CursorId) : Bool :=
  (s.frame f).view.isSome && (s.cursor c).onPrevious f

/-- The pool rows of a view are back on the free list. -/
def State.poolFreed (s : State) (v : ViewId) : State :=
  { s with pool := s.pool.map (fun h => if h.any (fun k => k.view == v) then none else h) }

@[simp] theorem State.frame_poolFreed (s : State) (v : ViewId) (g : FrameId) : (s.poolFreed v).frame g = s.frame g := rfl

@[simp] theorem State.holder_poolFreed (s : State) (v : ViewId) (h : ReadHolder) : (s.poolFreed v).holder h = s.holder h := by
  cases h <;> rfl

theorem State.poolRow_poolFreed (s : State) (v : ViewId) (p : PoolRow) :
    (s.poolFreed v).poolRow p = if (s.poolRow p).any (fun k => k.view == v) then none else s.poolRow p :=
  Vector.getElem_map _ _

/-- The state before the cursors of a released view are LOST: its reads marked, its pool rows free, the map without its marks. -/
def State.viewEmptied (s : State) (f : FrameId) (v : ViewId) : State :=
  ((s.markViewGone f).poolFreed v).modifyFrame f (fun x => { x with rowMap := x.rowMap.map RowEntry.viewReleased })

theorem State.viewEmptied_only (s : State) (f : FrameId) (v : ViewId) : s.viewEmptied f v = { s with
    frames := (s.viewEmptied f v).frames, pool := (s.viewEmptied f v).pool, holders := (s.viewEmptied f v).holders
    seamHolder := (s.viewEmptied f v).seamHolder } := by
  obtain ⟨honly, -⟩ := s.markViewGone_spec f
  unfold State.viewEmptied
  generalize s.markViewGone f = u at honly ⊢
  have hwith : ∀ frames pool, ({ u with frames := frames, pool := pool } : State)
      = { s with frames := frames, pool := pool, holders := u.holders, seamHolder := u.seamHolder } := fun _ _ => by rw [honly]
  exact hwith _ _

theorem State.frame_viewEmptied (s : State) (f : FrameId) (v : ViewId) (g : FrameId) : (s.viewEmptied f v).frame g =
    if g = f then { s.frame f with rowMap := (s.frame f).rowMap.map RowEntry.viewReleased } else s.frame g := by
  obtain ⟨honly, -⟩ := s.markViewGone_spec f
  have hframe : ∀ q, (s.markViewGone f).frame q = s.frame q := fun q => by simp only [State.frame, congrArg State.frames honly]
  rw [State.viewEmptied, State.modifyFrame_eq, State.frame_setFrame, State.frame_poolFreed, State.frame_poolFreed, hframe, hframe]

theorem State.poolRow_viewEmptied (s : State) (f : FrameId) (v : ViewId) (p : PoolRow) : (s.viewEmptied f v).poolRow p =
    if (s.poolRow p).any (fun k => k.view == v) then none else s.poolRow p := by
  obtain ⟨honly, -⟩ := s.markViewGone_spec f
  have hpool : (s.markViewGone f).poolRow p = s.poolRow p := by simp only [State.poolRow, congrArg State.pool honly]
  rw [State.viewEmptied, State.modifyFrame_eq, State.poolRow_setFrame, State.poolRow_poolFreed, hpool]

theorem State.isSome_holder_viewEmptied (s : State) (f : FrameId) (v : ViewId) (h : ReadHolder) :
    ((s.viewEmptied f v).holder h).isSome = (s.holder h).isSome := by
  obtain ⟨-, hholder⟩ := s.markViewGone_spec f
  rw [State.viewEmptied, State.modifyFrame_eq, State.holder_setFrame, State.holder_poolFreed, hholder]

theorem State.releaseView_of_none {s : State} {f : FrameId} (h : (s.frame f).view = none) (cause : LostCause) :
    s.releaseView f cause = s := by
  unfold State.releaseView
  rw [h]

theorem State.releaseView_of_some {s : State} {f : FrameId} {v : ViewId} (h : (s.frame f).view = some v) (cause : LostCause) :
    s.releaseView f cause = (((s.viewEmptied f v).loseCursors (fun c => c.onPrevious f) cause).setView v none).modifyFrame f
      (fun x => { x with view := none }) := by
  unfold State.releaseView
  rw [h]
  rfl

/-- From `s` to `t` the view of frame `f` has been released, if it had one. -/
structure State.ReleasesView (s t : State) (f : FrameId) (cause : LostCause) : Prop
    extends s.CursorsLost t (s.viewLosers f) cause where
  only   : t = { s with
    frames := t.frames, views := t.views, pool := t.pool, holders := t.holders, seamHolder := t.seamHolder, cursors := t.cursors
    clients := t.clients, ports := t.ports }
  frame  : t.frame f = { (s.frame f).withRetain (s.viewLosers f) false with rowMap := (t.frame f).rowMap, view := none }
  states : (t.frame f).rowMap.map RowEntry.state = (s.frame f).rowMap.map RowEntry.state
  rows   : (s.frame f).view ≠ none → ∀ x ∈ (t.frame f).rowMap, x.preserved = none ∧ x.lost = false
  others : ∀ g, g ≠ f → t.frame g = (s.frame g).withRetain (s.viewLosers f) false
  views  : ∀ w, t.view w = if (s.frame f).view = some w then none else s.view w
  pool   : ∀ p, t.poolRow p = (s.poolRow p).filter (fun h => decide ((s.frame f).view ≠ some h.view))

theorem State.releaseView_releases (s : State) (f : FrameId) (cause : LostCause) :
    s.ReleasesView (s.releaseView f cause) f cause := by
  cases hview : (s.frame f).view with
  | none =>
    have hgone : s.viewLosers f = fun _ => false := funext fun c => by simp [State.viewLosers, hview]
    have hstay : ∀ x : Frame, x.withRetain (s.viewLosers f) false = x := fun x =>
      Frame.withRetain_of_none fun _ => by rw [hgone]
    rw [State.releaseView_of_none hview]
    refine ⟨by rw [hgone]; exact .refl s cause, rfl, ?_, rfl, fun h => absurd hview h, fun g _ => (hstay _).symm, fun w => ?_,
      fun p => ?_⟩
    · rw [hstay, ← hview]
    · simp [hview]
    · cases s.poolRow p <;> simp [hview, Option.filter]
  | some v =>
    have hgone : s.viewLosers f = fun c => (s.cursor c).onPrevious f := funext fun c => by simp [State.viewLosers, hview]
    have hb := s.viewEmptied_only f v
    have hbframe := s.frame_viewEmptied f v
    have hbpool := s.poolRow_viewEmptied f v
    have hbholder := s.isSome_holder_viewEmptied f v
    have hloses := (s.viewEmptied f v).loseCursors_loses (fun c => c.onPrevious f) cause
    rw [State.releaseView_of_some hview]
    generalize (s.viewEmptied f v).loseCursors (fun c => c.onPrevious f) cause = u at hloses ⊢
    generalize s.viewEmptied f v = b at hb hbframe hbpool hbholder hloses
    have hbcursor : ∀ c, b.cursor c = s.cursor c := fun c => by simp only [State.cursor, congrArg State.cursors hb]
    have hbport : ∀ n, b.port n = s.port n := fun n => by simp only [State.port, congrArg State.ports hb]
    simp only [Cursor.onPrevious_and_open, hbcursor, ← hgone] at hloses
    obtain ⟨hlost, huonly, huframe⟩ := hloses
    obtain ⟨hh, hkept, hlost, htags, hnotices, htold⟩ := hlost.of_eq (s := s) (congrArg State.cursors hb :)
      (congrArg State.clients hb :) (fun n => congrArg Port.tag (hbport n)) hbholder
    have huview : ∀ w, u.view w = s.view w := fun w => by
      simp only [State.view, congrArg State.views huonly, congrArg State.views hb]
    have hupool : ∀ p, u.poolRow p = b.poolRow p := fun p => by simp only [State.poolRow, congrArg State.pool huonly]
    have honly : ∀ frames views, ({ u with frames := frames, views := views } : State) = { s with
        frames := frames, views := views, pool := u.pool, holders := u.holders, seamHolder := u.seamHolder
        cursors := u.cursors, clients := u.clients, ports := u.ports } := fun _ _ => by rw [huonly, hb]
    have hframe : (((u.setView v none).modifyFrame f (fun x => { x with view := none })).frame f)
        = { (s.frame f).withRetain (s.viewLosers f) false with
            rowMap := (s.frame f).rowMap.map RowEntry.viewReleased, view := none } := by
      rw [State.modifyFrame_eq, State.frame_setFrame_self, State.frame_setView, huframe, hbframe, if_pos rfl]
      rfl
    refine ⟨⟨fun h => ?_, hkept, hlost, htags, hnotices.trans (.of_eq rfl), htold⟩, honly _ _, ?_, ?_, fun _ => ?_, fun g hg => ?_, fun w => ?_,
      fun p => ?_⟩
    · rw [← hh h]
      cases h <;> rfl
    · rw [hframe]
    · rw [hframe]
      simp [RowEntry.viewReleased, Function.comp_def]
    · rw [hframe]
      simp [RowEntry.viewReleased]
    · rw [State.modifyFrame_eq, State.frame_setFrame, if_neg hg, State.frame_setView, huframe, hbframe, if_neg hg]
    · rw [State.modifyFrame_eq, State.view_setFrame, State.view_setView, huview, hview]
      by_cases hw : w = v
      · simp [hw]
      · simp [hw, Ne.symm hw]
    · rw [State.modifyFrame_eq, State.poolRow_setFrame, State.poolRow_setView, hupool, hbpool]
      cases s.poolRow p with
      | none => rfl
      | some h =>
        by_cases hv : h.view = v
        · simp [hview, hv, Option.filter]
        · simp [hview, hv, Ne.symm hv, Option.filter]

theorem State.ReleasesView.source {s t : State} {f : FrameId} {cause : LostCause} (h : s.ReleasesView t f cause) (i : SourceId) :
    t.source i = s.source i := by
  unfold State.source
  rw [h.only]

theorem State.ReleasesView.restKept {s t : State} {f : FrameId} {cause : LostCause} (h : s.ReleasesView t f cause) :
    s.RestKept t :=
  h.toCursorsLost.restKept (by rw [h.only]) (by rw [h.only])

/-! ### The opening of a view (R89) -/

theorem State.freeView_eq_some_iff (s : State) (v : ViewId) :
    s.freeView = some v ↔ s.view v = none ∧ ∀ w, w < v → s.view w ≠ none := by
  have hall : allViews = List.finRange 4 := by decide
  rw [State.freeView, hall, find?_finRange_eq_some_iff]
  simp [Option.isSome_iff_ne_none]

theorem State.freeView_eq_none_iff (s : State) : s.freeView = none ↔ ∀ v, s.view v ≠ none := by
  have hall : ∀ v : ViewId, v ∈ allViews := by decide
  simp [State.freeView, List.find?_eq_none, hall]

/-- The frame's view, and the view that holds it, once a view is opened. -/
theorem State.openView_of_some {s : State} {v : ViewId} (h : s.freeView = some v) (f : FrameId) :
    s.openView f = (s.setView v
      (some { frame := f, generation := (s.frame f).pass, torn := false, held := 0, cursors := 0 })).setFrame f
        { s.frame f with view := some v } := by
  unfold State.openView
  rw [h]
  rfl

theorem State.openView_of_none {s : State} (h : s.freeView = none) (f : FrameId) : s.openView f = s := by
  unfold State.openView
  rw [h]

/-- It changes the views and the frame's view alone. -/
theorem State.openView_spec (s : State) (f : FrameId) :
    s.openView f = { s with frames := (s.openView f).frames, views := (s.openView f).views }
      ∧ (s.openView f).frame f = { s.frame f with view := ((s.openView f).frame f).view }
      ∧ ∀ g, g ≠ f → (s.openView f).frame g = s.frame g := by
  cases h : s.freeView with
  | none => rw [State.openView_of_none h]; exact ⟨rfl, rfl, fun _ _ => rfl⟩
  | some v =>
    rw [State.openView_of_some h]
    refine ⟨rfl, ?_, fun g hg => ?_⟩
    · rw [State.frame_setFrame_self]
    · rw [State.frame_setFrame, if_neg hg, State.frame_setView]

/-! ### Stale operations and an overtaken pass -/

theorem State.mem_staleOps {s : State} {f : FrameId} {o : WriteOp} (h : o ∈ (s.staleOps f).writeQueue) (ho : o.slot = f) :
    o.stale = true := by
  obtain ⟨o', -, rfl⟩ := List.mem_map.mp h
  split
  · rfl
  · next hne =>
    rw [if_neg hne] at ho
    exact absurd ho hne

/-- The pass of a SETTLING frame is still owed its PASS_SETTLED (R85). -/
def Frame.owesSettled (x : Frame) : Prop := x.state = .settling ∧ x.enable = true ∧ x.pendingMark = true

theorem State.setFrame_raise (s : State) (o : Origin) (d : NoticeDetail) (f : FrameId) (x : Frame) :
    (s.raise o d).setFrame f x = (s.setFrame f x).raise o d := by
  rw [State.raise_eq, State.raise_eq]
  rfl

/-- It changes the frame alone, and of it the timer and what settles a pass. -/
theorem State.settleOvertaken_of_owed {s : State} {f : FrameId} (h : (s.frame f).owesSettled) :
    s.settleOvertaken f = (s.setFrame f { s.frame f with
        settleTimer := none, settledAt := some s.clock.time, enable := false, pendingMark := false }).raise
      (.frame f) (.passSettled (s.frame f).pass (s.verdict f)) := by
  obtain ⟨hs, he, hp⟩ := h
  unfold State.settleOvertaken
  dsimp only
  rw [if_pos hs, if_pos (by rw [he, hp]; rfl), State.modifyFrame_eq, State.modifyFrame_eq, State.frame_raise, State.setFrame_raise,
    State.setFrame_setFrame, State.frame_setFrame_self]

theorem State.settleOvertaken_of_not_owed {s : State} {f : FrameId} (h : ¬ (s.frame f).owesSettled) :
    ∃ timer, s.settleOvertaken f = s.setFrame f { s.frame f with settleTimer := timer } := by
  unfold State.settleOvertaken
  split
  · next hs =>
    dsimp only
    rw [if_neg fun hep => h ⟨hs, by simpa using hep⟩]
    exact ⟨none, rfl⟩
  · exact ⟨(s.frame f).settleTimer, (State.setFrame_self s f).symm⟩

end Sys2Proof.Machine
end

section
/-! SUPPORT. A new pass of a frame (R11, R85, R87, R89), before the mosaic unit is told of it. -/

namespace Sys2Proof.Machine

/-- From `s` to `t` the pass of frame `f`, if it was SETTLING, has been overtaken, and its operations are stale (R66, R85). -/
structure State.Overtakes (s t : State) (f : FrameId) : Prop where
  only    : t = { s with frames := t.frames, clients := t.clients, writeQueue := t.writeQueue }
  frame   : ∃ timer settled enable pending, t.frame f = { s.frame f with
    settleTimer := timer, settledAt := settled, enable := enable, pendingMark := pending }
  owed    : (s.frame f).owesSettled → (t.frame f).settledAt = some s.clock.time
    ∧ ∀ n, (s.client n).levels[(1 : Fin 16)] ≠ 0 → t.hasFiled n (.frame f) (.passSettled (s.frame f).pass (s.verdict f))
  quiet   : ¬ (s.frame f).owesSettled → (t.frame f).settledAt = (s.frame f).settledAt ∧ t.clients = s.clients
  notices : s.SaysOnly [1] t
  ops     : ∀ o ∈ t.writeQueue, o.slot = f → o.stale = true

theorem State.overtaken_overtakes (s : State) (f : FrameId) : s.Overtakes ((s.settleOvertaken f).staleOps f) f := by
  by_cases h : (s.frame f).owesSettled
  · rw [State.settleOvertaken_of_owed h]
    set x : Frame := { s.frame f with settleTimer := none, settledAt := some s.clock.time, enable := false, pendingMark := false }
    set v : State := (s.setFrame f x).raise (.frame f) (.passSettled (s.frame f).pass (s.verdict f)) with hv
    have hframe : (v.staleOps f).frame f = x := by
      rw [← State.frame_setFrame_self s f x, ← State.frame_raise (s.setFrame f x) (.frame f)
        (.passSettled (s.frame f).pass (s.verdict f)), ← hv]
      rfl
    have hsays : (s.setFrame f x).SaysOnly [1] v := .raise _ _ (List.mem_singleton.mpr rfl)
    refine ⟨?_, ⟨_, _, _, _, hframe⟩, fun _ => ⟨by rw [hframe], fun n hn => ?_⟩, fun hn => absurd h hn, ⟨hsays.levels, hsays.pairs⟩,
      fun _ => State.mem_staleOps⟩
    · rw [hv, State.raise_eq]; rfl
    · have hfiled : v.hasFiled n (.frame f) (.passSettled (s.frame f).pass (s.verdict f)) := State.raise_hasFiled _ hn
      exact hfiled
  · obtain ⟨timer, hs⟩ := State.settleOvertaken_of_not_owed h
    rw [hs]
    set x : Frame := { s.frame f with settleTimer := timer }
    have hframe : ((s.setFrame f x).staleOps f).frame f = x := State.frame_setFrame_self s f x
    exact ⟨rfl, ⟨_, _, _, _, hframe⟩, fun ho => absurd ho h, fun _ => ⟨by rw [hframe], rfl⟩, .of_eq rfl, fun _ => State.mem_staleOps⟩

/-- The frame in its next pass, with its first source (R87). -/
def Frame.nextPass (x : Frame) (i : SourceId) (e : EntryId) (d : EntryFields) : Frame :=
  { x with
    state := .receiving, pass := x.pass + 1, enable := true, pendingMark := false, joined := onlySource i, entry := some e
    station := d.station, product := d.product }.stamped

@[simp] theorem Frame.rowMap_nextPass (x : Frame) (i : SourceId) (e : EntryId) (d : EntryFields) :
    (x.nextPass i e d).rowMap = x.rowMap := rfl
@[simp] theorem Frame.view_nextPass (x : Frame) (i : SourceId) (e : EntryId) (d : EntryFields) :
    (x.nextPass i e d).view = x.view := rfl
@[simp] theorem Frame.settledAt_nextPass (x : Frame) (i : SourceId) (e : EntryId) (d : EntryFields) :
    (x.nextPass i e d).settledAt = x.settledAt := rfl

/-- The state in which frame `f` has taken a new pass and the mosaic unit has not been told. -/
def State.passOpened (s : State) (f : FrameId) (i : SourceId) (e : EntryId) (d : EntryFields) : State :=
  ((((s.settleOvertaken f).staleOps f).releaseView f .viewReleased).openView f).modifyFrame f (fun x => x.nextPass i e d)

theorem State.newPass_eq (s : State) (f : FrameId) (i : SourceId) (e : EntryId) (d : EntryFields) :
    s.newPass f i e d = (s.passOpened f i e d).tellNewPass f := rfl

/-- A view once the frame's old one, if any, has been released. -/
def State.viewWithout (s : State) (f : FrameId) (w : ViewId) : Option View :=
  if (s.frame f).view = some w then none else s.view w

/-- The view opened on the old pass of the frame (R89). -/
def State.passView (s : State) (f : FrameId) : View :=
  { frame := f, generation := (s.frame f).pass, torn := false, held := 0, cursors := 0 }

/-- From `s` to `t` frame `f` has taken a new pass with its first source `i` through entry `e`. -/
structure State.OpensPass (s t : State) (f : FrameId) (i : SourceId) (e : EntryId) (d : EntryFields) : Prop where
  restKept : s.RestKept t
  sources  : t.sources = s.sources
  groups   : t.groups = s.groups
  schedule : t.schedule = s.schedule
  frame    : ∃ timer settled retain rows view, t.frame f = { s.frame f with
    state := .receiving, pass := (s.frame f).pass + 1, enable := true, pendingMark := false, joined := onlySource i, entry := some e
    station := d.station, product := d.product, stamp := next16 (s.frame f).stamp, settleTimer := timer, settledAt := settled
    pins := { (s.frame f).pins with retain := retain }, rowMap := rows, view := view }
  states   : (t.frame f).rowMap.map RowEntry.state = (s.frame f).rowMap.map RowEntry.state
  rows     : (s.frame f).view ≠ none → ∀ x ∈ (t.frame f).rowMap, x.preserved = none ∧ x.lost = false
  owed     : (s.frame f).owesSettled → (t.frame f).settledAt = some s.clock.time
    ∧ ∀ n, (s.client n).levels[(1 : Fin 16)] ≠ 0 → t.hasFiled n (.frame f) (.passSettled (s.frame f).pass (s.verdict f))
  quiet    : ¬ (s.frame f).owesSettled → (t.frame f).settledAt = (s.frame f).settledAt ∧ s.SaysOnly [12] t
  notices  : s.SaysOnly [1, 12] t
  ops      : ∀ o ∈ t.writeQueue, o.slot = f → o.stale = true
  opened   : ∀ v, s.viewWithout f v = none → (∀ w, w < v → s.viewWithout f w ≠ none) →
    (t.frame f).view = some v ∧ ∀ w, t.view w = if w = v then some (s.passView f) else s.viewWithout f w
  unopened : (∀ w, s.viewWithout f w ≠ none) → (t.frame f).view = none ∧ ∀ w, t.view w = s.viewWithout f w
  pool     : ∀ p, t.poolRow p = (s.poolRow p).filter (fun h => decide ((s.frame f).view ≠ some h.view))
  losers   : ∀ c, s.viewLosers f c = true → ∃ k, (s.cursor c).slot = .opened k ∧ (t.cursor c).slot = .lost k
  told     : ∀ c, s.viewLosers f c = true → (s.client (ownerOf c)).levels[(12 : Fin 16)] ≠ 0 →
    ∃ q, ownerOf q = ownerOf c ∧ t.hasFiled (ownerOf c) (.client (ownerOf c)) (.cursorLostFrame q f .viewReleased)

theorem State.passOpened_opens (s : State) (f : FrameId) (i : SourceId) (e : EntryId) (d : EntryFields) :
    s.OpensPass (s.passOpened f i e d) f i e d := by
  have hover := s.overtaken_overtakes f
  unfold State.passOpened
  generalize (s.settleOvertaken f).staleOps f = b at hover ⊢
  have hrel := b.releaseView_releases f .viewReleased
  generalize b.releaseView f .viewReleased = r at hrel ⊢
  obtain ⟨timer, settled, enable, pending, hbframe⟩ := hover.frame
  have hbcursor : ∀ k, b.cursor k = s.cursor k := fun k => by simp only [State.cursor, congrArg State.cursors hover.only]
  have hlosers : b.viewLosers f = s.viewLosers f := by
    funext k
    rw [State.viewLosers, State.viewLosers, hbframe, hbcursor]
  have hrview : ∀ w, r.view w = s.viewWithout f w := fun w => by
    have hbview : b.view w = s.view w := by simp only [State.view, congrArg State.views hover.only]
    rw [hrel.views, hbframe, hbview]
    rfl
  have hrframe : ∃ retain, r.frame f = { s.frame f with
      settleTimer := timer, settledAt := settled, enable := enable, pendingMark := pending
      pins := { (s.frame f).pins with retain := retain }, rowMap := (r.frame f).rowMap, view := none } := by
    have h := hrel.frame
    rw [hbframe] at h
    exact ⟨_, h⟩
  have hrpass : r.passView f = s.passView f := by
    obtain ⟨retain, hr⟩ := hrframe
    rw [State.passView, State.passView, hr]
  obtain ⟨hoonly, hoframe, -⟩ := r.openView_spec f
  have hopened : ∀ v, s.viewWithout f v = none → (∀ w, w < v → s.viewWithout f w ≠ none) →
      r.openView f = (r.setView v (some (s.passView f))).setFrame f { r.frame f with view := some v } := fun v hv hlt => by
    rw [← hrpass]
    refine State.openView_of_some ((r.freeView_eq_some_iff v).mpr ⟨by rw [hrview]; exact hv, fun w hw => ?_⟩) f
    rw [hrview]
    exact hlt w hw
  have hunopened : (∀ w, s.viewWithout f w ≠ none) → r.openView f = r := fun hv =>
    State.openView_of_none (r.freeView_eq_none_iff.mpr fun w => by rw [hrview]; exact hv w) f
  generalize r.openView f = o at hoonly hoframe hopened hunopened ⊢
  obtain ⟨retain, hr⟩ := hrframe
  have hmframe : (o.modifyFrame f (fun x => x.nextPass i e d)).frame f = (o.frame f).nextPass i e d :=
    State.frame_setFrame_self o f _
  have hmview : ∀ w, (o.modifyFrame f (fun x => x.nextPass i e d)).view w = o.view w := fun _ => rfl
  have hmrows : ((o.modifyFrame f (fun x => x.nextPass i e d)).frame f).rowMap = (r.frame f).rowMap := by
    rw [hmframe, Frame.rowMap_nextPass, hoframe]
  have hmsettled : ((o.modifyFrame f (fun x => x.nextPass i e d)).frame f).settledAt = (b.frame f).settledAt := by
    rw [hmframe, Frame.settledAt_nextPass, hoframe, hr, hbframe]
  have hlate : b.SaysOnly [12] (o.modifyFrame f (fun x => x.nextPass i e d)) :=
    (hrel.notices.trans (.of_eq (congrArg State.clients hoonly :))).trans (.of_eq rfl)
  have hmcursor : ∀ c, (o.modifyFrame f (fun x => x.nextPass i e d)).cursor c = r.cursor c := fun c => by
    show o.cursor c = _
    simp only [State.cursor, congrArg State.cursors hoonly]
  have hmclient : ∀ n, (o.modifyFrame f (fun x => x.nextPass i e d)).client n = r.client n := fun n => by
    show o.client n = _
    simp only [State.client, congrArg State.clients hoonly]
  refine
    { restKept := ?_, sources := ?_, groups := ?_, schedule := ?_, frame := ?_, states := ?_, rows := ?_, owed := fun h => ?_,
      quiet := fun h => ?_, notices := ?_, ops := ?_, opened := fun v hv hlt => ?_, unopened := fun hv => ?_, pool := fun p => ?_,
      losers := fun c hc => ?_, told := fun c hc hlevel => ?_ }
  · have hb : s.RestKept b := .of_eq (congrArg State.sources hover.only :) (congrArg State.engine hover.only :)
      (congrArg State.holders hover.only :) (congrArg State.seamHolder hover.only :) (congrArg State.cursors hover.only :)
    have ho : r.RestKept o := .of_eq (congrArg State.sources hoonly :) (congrArg State.engine hoonly :)
      (congrArg State.holders hoonly :) (congrArg State.seamHolder hoonly :) (congrArg State.cursors hoonly :)
    exact ((hb.trans hrel.restKept).trans ho).trans (State.setFrame_restKept o f _)
  · show o.sources = s.sources
    simp only [congrArg State.sources hoonly, congrArg State.sources hrel.only, congrArg State.sources hover.only]
  · show o.groups = s.groups
    simp only [congrArg State.groups hoonly, congrArg State.groups hrel.only, congrArg State.groups hover.only]
  · show o.schedule = s.schedule
    simp only [congrArg State.schedule hoonly, congrArg State.schedule hrel.only, congrArg State.schedule hover.only]
  · refine ⟨timer, settled, retain, (r.frame f).rowMap, (o.frame f).view, ?_⟩
    rw [hmframe, hoframe, hr]
    rfl
  · rw [hmrows, hrel.states, hbframe]
  · rw [hmrows]
    exact fun h => hrel.rows (by rw [hbframe]; exact h)
  · obtain ⟨hat, htold⟩ := hover.owed h
    exact ⟨hmsettled.trans hat, fun n hn => hlate.hasFiled (htold n hn) (show (1 : Fin 16) ∉ [12] by decide)⟩
  · obtain ⟨hat, hclients⟩ := hover.quiet h
    exact ⟨hmsettled.trans hat, (State.SaysOnly.of_eq hclients).trans hlate⟩
  · exact (hover.notices.mono (by decide)).trans (hlate.mono (by decide))
  · have hqueue : o.writeQueue = b.writeQueue := by
      simp only [congrArg State.writeQueue hoonly, congrArg State.writeQueue hrel.only]
    show ∀ q ∈ o.writeQueue, _
    rw [hqueue]
    exact hover.ops
  · refine ⟨?_, fun w => ?_⟩
    · rw [hmframe, Frame.view_nextPass, hopened v hv hlt, State.frame_setFrame_self]
    · rw [hmview, hopened v hv hlt, State.view_setFrame, State.view_setView, hrview]
  · refine ⟨?_, fun w => ?_⟩
    · rw [hmframe, Frame.view_nextPass, hunopened hv, hr]
    · rw [hmview, hunopened hv, hrview]
  · have hopool : o.poolRow p = r.poolRow p := by simp only [State.poolRow, congrArg State.pool hoonly]
    have hbpool : b.poolRow p = s.poolRow p := by simp only [State.poolRow, congrArg State.pool hover.only]
    have := hrel.pool p
    rw [hbframe, hbpool] at this
    exact hopool.trans this
  · obtain ⟨k, hk, hlost⟩ := hrel.lost c (by rw [hlosers]; exact hc)
    exact ⟨k, by rw [← hbcursor]; exact hk, by rw [hmcursor, hlost]⟩
  · obtain ⟨q, k, hq, howner, hk, hfiled⟩ := hrel.told c (by rw [hlosers]; exact hc) (by rw [hover.notices.levels]; exact hlevel)
    have hprevious : k.attachment = .previous f := by
      obtain ⟨-, hp⟩ := (Bool.and_eq_true _ _).mp (show (_ && (b.cursor q).onPrevious f) = true from hq)
      obtain ⟨k', hk', hp⟩ := (Cursor.onPrevious_iff _ _).mp hp
      rw [hk] at hk'
      cases hk'
      exact hp
    refine ⟨q, howner, ?_⟩
    unfold State.hasFiled at hfiled ⊢
    rw [hmclient]
    rw [hprevious] at hfiled
    exact hfiled

end Sys2Proof.Machine
end

section
/-! SUPPORT. The binding handed on (R17, R25), an EXPECTED frame taken (R12, R143), and the STARTs that open a pass (R11, R12). -/

namespace Sys2Proof.Machine

/-! ### A binding handed on -/

/-- From `s` to `t` the binding of source `i` to frame `f` has been handed on (R17). -/
structure State.HandsOn (s t : State) (i : SourceId) (f : FrameId) (g : Geometry) (kind : BindingKind) : Prop where
  source  : t.source i = (s.source i).bound { frame := f, pass := (s.frame f).pass, geometry := g }
  frame   : ∃ m r, t.frame f = { s.frame f with mosaic := m, pins := { (s.frame f).pins with retain := r } }
  cursors : t.cursors = s.cursors
  views   : t.views = s.views
  pool    : t.pool = s.pool
  queue   : t.writeQueue = s.writeQueue
  notices : s.SaysOnly [0, 10, 11] t
  told    : ∀ n, (s.client n).levels[(0 : Fin 16)] ≠ 0 → t.hasFiled n (.frame f) (.frameBound i kind)

theorem State.handOn_handsOn {s : State} {f : FrameId} {g : Geometry} (hg : (s.frame f).geometry = some g) (i : SourceId)
    (kind : BindingKind) : s.HandsOn (s.handOn i f kind true false) i f g kind := by
  rw [State.handOn_eq, State.bindSource_eq hg]
  generalize hu : s.setSource i ((s.source i).bound { frame := f, pass := (s.frame f).pass, geometry := g }) = u
  have husource : u.source i = (s.source i).bound { frame := f, pass := (s.frame f).pass, geometry := g } := by
    rw [← hu, State.source_setSource_self]
  have huonly : u = { s with sources := u.sources } := by rw [← hu]; rfl
  have huframe : u.frame f = s.frame f := by simp only [State.frame, congrArg State.frames huonly]
  have husays : s.SaysOnly [0, 10, 11] u := .of_eq (congrArg State.clients huonly :)
  have hmoved := u.tellBound_remosaics f
  generalize u.tellBound f = v at hmoved ⊢
  have hvonly := hmoved.only
  obtain ⟨m, ret, hvframe⟩ := hmoved.frames f
  have hsays := (husays.trans (hmoved.notices.mono (by decide))).trans
    (State.SaysOnly.raise (kinds := [0, 10, 11]) v (.frame f) (d := .frameBound i kind) List.mem_cons_self)
  refine ⟨?_, ⟨m, ret, ?_⟩, ?_, ?_, ?_, ?_, hsays, fun n hn => State.raise_hasFiled _ ?_⟩
  · rw [State.source_raise, hmoved.source, husource]
  · rw [State.frame_raise, hvframe, huframe]
  · rw [State.raise_eq]
    simp only [congrArg State.cursors hvonly, congrArg State.cursors huonly]
  · rw [State.raise_eq]
    simp only [congrArg State.views hvonly, congrArg State.views huonly]
  · rw [State.raise_eq]
    simp only [congrArg State.pool hvonly, congrArg State.pool huonly]
  · rw [State.raise_eq]
    simp only [congrArg State.writeQueue hvonly, congrArg State.writeQueue huonly]
  · rw [hmoved.notices.levels, husays.levels]
    exact hn

/-- Where the section has the frame already, handing its binding on changes no frame and no group. -/
theorem State.handOn_of_sectionHas {s : State} {f : FrameId} {g : Geometry} (hg : (s.frame f).geometry = some g) (i : SourceId)
    (kind : BindingKind) (h : s.sectionHas f) : s.handOn i f kind true false
      = (s.setSource i ((s.source i).bound { frame := f, pass := (s.frame f).pass, geometry := g })).raise (.frame f)
        (.frameBound i kind) := by
  have hkept : ∀ x, s.SectionsKept (s.setSource i x) := fun _ => .of_eq rfl rfl rfl
  rw [State.handOn_eq, State.bindSource_eq hg, State.tellBound_of_sectionHas ((hkept _).sectionHas h)]

/-! ### An EXPECTED frame taken (R12, R143) -/

/-- A cursor once the frame it is on, if it is on the frame, has been refreshed to a number of rows (R143). -/
def Cursor.refitOn (x : Cursor) (f : FrameId) (rows : Nat) : Cursor :=
  match x.openFields with
  | some k => if x.onFrame f then { x with slot := .opened (k.refit rows) } else x
  | none => x

theorem Cursor.refitOn_of_onFrame {x : Cursor} {f : FrameId} {k : CursorFields} (hk : x.slot = .opened k)
    (h : k.attachment = .current f ∨ k.attachment = .previous f) (rows : Nat) :
    x.refitOn f rows = { x with slot := .opened (k.refit rows) } := by
  have hon : x.onFrame f = true := (x.onFrame_iff f).mpr ⟨k, hk, h⟩
  have hopen : x.openFields = some k := (x.openFields_eq_some_iff k).mpr hk
  simp [Cursor.refitOn, hopen, hon]

theorem Cursor.refitOn_of_not_onFrame {x : Cursor} {f : FrameId}
    (h : ∀ k, x.slot = .opened k → k.attachment ≠ .current f ∧ k.attachment ≠ .previous f) (rows : Nat) :
    x.refitOn f rows = x := by
  have hon : x.onFrame f = false := Bool.eq_false_of_not_eq_true fun hon => by
    obtain ⟨k, hk, ha⟩ := (x.onFrame_iff f).mp hon
    exact ha.elim (h k hk).1 (h k hk).2
  unfold Cursor.refitOn
  split
  · rw [hon]; rfl
  · rfl

theorem Cursor.openFields_refitOn (x : Cursor) (f : FrameId) (rows : Nat) :
    (x.refitOn f rows).openFields.isSome = x.openFields.isSome ∧ (x.refitOn f rows).job = x.job := by
  unfold Cursor.refitOn
  split
  · next k hk =>
    split
    · exact ⟨by rw [hk]; rfl, rfl⟩
    · exact ⟨rfl, rfl⟩
  · exact ⟨rfl, rfl⟩

theorem State.setCursor_self (s : State) (c : CursorId) : s.setCursor c (s.cursor c) = s := by
  simp [State.setCursor, State.cursor]

theorem State.refitCursors_spec (s : State) (f : FrameId) (rows : Nat) :
    s.refitCursors f rows = { s with cursors := (s.refitCursors f rows).cursors }
      ∧ ∀ c, (s.refitCursors f rows).cursor c = (s.cursor c).refitOn f rows := by
  have fold : ∀ l : List CursorId, l.Nodup →
      let t := l.foldl (fun s c =>
        match (s.cursor c).openFields with
        | some k => if (s.cursor c).onFrame f then s.modifyCursor c (fun x => { x with slot := .opened (k.refit rows) }) else s
        | none => s) s
      t = { s with cursors := t.cursors } ∧ ∀ c, t.cursor c = if c ∈ l then (s.cursor c).refitOn f rows else s.cursor c := by
    intro l
    induction l using List.reverseRecOn with
    | nil => exact fun _ => ⟨rfl, fun c => by simp⟩
    | append_singleton l a ih =>
      intro hnodup
      obtain ⟨hl, -, hdisjoint⟩ := List.nodup_append.mp hnodup
      have ha : a ∉ l := fun hmem => hdisjoint a hmem a (List.mem_singleton.mpr rfl) rfl
      obtain ⟨honly, hcursor⟩ := ih hl
      rw [List.foldl_append, List.foldl_cons, List.foldl_nil]
      generalize l.foldl _ s = u at honly hcursor ⊢
      have hself : u.cursor a = s.cursor a := by rw [hcursor, if_neg ha]
      have hstep : (match (u.cursor a).openFields with
          | some k => if (u.cursor a).onFrame f then u.modifyCursor a (fun x => { x with slot := .opened (k.refit rows) }) else u
          | none => u) = u.setCursor a ((s.cursor a).refitOn f rows) := by
        have hsame : u = u.setCursor a (s.cursor a) := by rw [← hself]; exact (u.setCursor_self a).symm
        rw [hself]
        unfold Cursor.refitOn
        split
        · split
          · rw [State.modifyCursor_eq, hself]
          · exact hsame
        · exact hsame
      rw [hstep]
      have hwith : ∀ cursors, ({ u with cursors := cursors } : State) = { s with cursors := cursors } := fun _ => by rw [honly]
      refine ⟨hwith _, fun c => ?_⟩
      rw [State.cursor_setCursor, hcursor]
      by_cases hc : c = a
      · simp [hc]
      · simp [hc]
  obtain ⟨honly, hcursor⟩ := fold allCursors (by decide)
  refine ⟨honly, fun c => (hcursor c).trans (if_pos (mem_allCursors c))⟩

/-- A step that is not down starts a refitted cursor at the last row (R143). -/
theorem CursorFields.refit_eq (k : CursorFields) (rows : Nat) : k.refit rows = if k.base + k.length ≤ rows then k
    else { k with base := 0, length := rows, position := if 0 < k.step then 0 else rows - 1 } := by
  unfold CursorFields.refit defaultPosition
  rw [Nat.zero_add]

/-- From `s` to `t` the EXPECTED frame `f` has taken its first source `i` through entry `e` (R12). -/
structure State.TakesExpected (s t : State) (f : FrameId) (i : SourceId) (e : EntryId) (d : EntryFields) : Prop where
  restKept : s.RestKept t
  sources  : t.sources = s.sources
  clients  : t.clients = s.clients
  frame    : t.frame f = { s.frame f with
    state := .receiving, entry := some e, station := d.station, product := d.product, geometry := some d.geometry, pass := 1
    joined := onlySource i, enable := true, pendingMark := false, coverage := 0, missed := 0, damaged := 0
    rowMap := s.freshMap f d.rows, stamp := next16 (s.frame f).stamp }
  cursors  : ∀ c, t.cursor c = (s.cursor c).refitOn f d.rows

theorem State.takeExpected_takes (s : State) (f : FrameId) (i : SourceId) (e : EntryId) (d : EntryFields) :
    s.TakesExpected (s.takeExpected f i e d) f i e d := by
  unfold State.takeExpected
  dsimp only
  rw [State.modifyFrame_eq]
  generalize hx : Frame.stamped _ = x
  obtain ⟨honly, hcursor⟩ := (s.setFrame f x).refitCursors_spec f d.rows
  generalize (s.setFrame f x).refitCursors f d.rows = t at honly hcursor ⊢
  have htframe : t.frame f = x := by
    have : t.frame f = (s.setFrame f x).frame f := by simp only [State.frame, congrArg State.frames honly]
    rw [this, State.frame_setFrame_self]
  refine ⟨?_, (congrArg State.sources honly :), (congrArg State.clients honly :), by rw [htframe, ← hx]; rfl, hcursor⟩
  refine ⟨fun j => .inr ?_, .inl (congrArg State.engine honly :), fun h => ?_, fun c hc => ?_⟩
  · simp only [State.source, congrArg State.sources honly]
    exact ⟨rfl, rfl, rfl⟩
  · cases h
    · simp only [State.holder, congrArg State.holders honly]
      rfl
    · simp only [State.holder, congrArg State.seamHolder honly]
      rfl
  · obtain ⟨hopen, hjob⟩ := Cursor.openFields_refitOn (s.cursor c) f d.rows
    rw [hcursor] at hc ⊢
    exact ⟨hopen.symm.trans hc, hjob⟩

/-! ### A new pass, and the mosaic unit -/

theorem State.tellNewPass_sectionsKept (s : State) (f : FrameId) : s.SectionsKept (s.tellNewPass f) := by
  unfold State.tellNewPass
  split
  · exact State.sectionChanged_sectionsKept _ _ _ _ _
  · exact .refl s

/-- A section whose bound frame is in reception is changed: its group gathers (R103). -/
theorem State.tellNewPass_regathers {s : State} {f : FrameId} {g : GroupId} {k : Nat} (hm : (s.frame f).mosaic = some (g, k))
    (hsection : s.sectionFrame g k = some f) (hdef : (s.group g).state ≠ .undefined) (hf : (s.frame f).state.isSettled = false) :
    s.regathers (s.tellNewPass f) g k .newPass := by
  unfold State.tellNewPass
  rw [hm]
  refine State.sectionChanged_regathers k .newPass hdef rfl ?_
  obtain ⟨y, hy, hyf⟩ := Option.bind_eq_some_iff.mp hsection
  refine List.all_eq_false.mpr ⟨y, List.mem_of_getElem? hy, ?_⟩
  simp [State.sectionSettled, hyf, hf]

theorem State.regathers.setSource {s t : State} {g : GroupId} {k : Nat} {c : StaleCause} (h : s.regathers t g k c) (i : SourceId)
    (x : Source) : s.regathers (t.setSource i x) g k c := h

end Sys2Proof.Machine
end

section
/-! PROOF. O20: a START that opens a new pass or takes an EXPECTED frame (R11, R12, R85, R87, R89, R143). -/

namespace Sys2Proof.Machine

section Branches
variable {s : State} {i : SourceId} {f : FrameId} {e : EntryId} {d : EntryFields}

theorem State.bound_heard (b : StreamBinding) : ((s.heard i).source i).bound b = { s.source i with
    state := .phasing, silenceTimer := some 2000, checkFailures := 0, binding := some b, firstSeq := none, expectedSeq := none
    reference := 0, unphased := false, positions := [], misses := 0, rejections := 0, linePeriodTimer := none
    fadeTimer := none } := by
  rw [State.source_setSource_self]
  rfl

/-- Without a view of the frame the views are free for a new pass as they are. -/
theorem State.viewWithout_of_none (h : (s.frame f).view = none) (w : ViewId) : s.viewWithout f w = s.view w :=
  if_neg (by simp [h])

/-- The old view of the frame is free for a new pass. -/
theorem State.viewWithout_of_some {o : ViewId} (h : (s.frame f).view = some o) (w : ViewId) :
    s.viewWithout f w = if w = o then none else s.view w := by
  unfold State.viewWithout
  by_cases hw : w = o
  · simp [h, hw]
  · simp [h, hw, Ne.symm hw]

theorem State.viewLosers_of_previous {c : CursorId} {k : CursorFields} {o : ViewId} (h : (s.frame f).view = some o)
    (hk : (s.cursor c).slot = .opened k) (ha : k.attachment = .previous f) : s.viewLosers f c = true := by
  rw [State.viewLosers, h, Option.isSome_some, Bool.true_and]
  exact (Cursor.onPrevious_iff _ _).mpr ⟨k, hk, ha⟩

theorem State.bindScheduled_newPass (hkey : ∀ k, s.holdsKey k e d ↔ k = f)
    (hstate : (s.frame f).state = .complete ∨ (s.frame f).state = .partialOnly
      ∨ (s.frame f).state = .settling ∧ (s.frame f).entry ≠ some e)
    (hg : (s.frame f).geometry = some d.geometry) (hpass : (s.frame f).pass < 15) :
    s.bindScheduled i e d = ((s.passOpened f i e d).tellNewPass f).handOn i f .newPass true false := by
  have hstep : s.bindingStep e d = .newPass f := by
    rw [State.bindingStep_of_holder hkey]
    rcases hstate with hs | hs | ⟨hs, hentry⟩
    · rw [hs]; exact if_pos ⟨hg, hpass⟩
    · rw [hs]; exact if_pos ⟨hg, hpass⟩
    · rw [hs]; exact (if_neg hentry).trans (if_pos ⟨hg, hpass⟩)
  rw [State.bindScheduled, hstep]
  rfl

theorem State.bindScheduled_expected (hkey : ∀ k, s.holdsKey k e d ↔ k = f) (hstate : (s.frame f).state = .expected) :
    s.bindScheduled i e d = (s.takeExpected f i e d).handOn i f .expected true false := by
  have hstep : s.bindingStep e d = .take f := by rw [State.bindingStep_of_holder hkey, hstate]
  rw [State.bindScheduled, hstep]

end Branches

/-- The sections that match and fit the frame have it, where those did that match and fit it through the entry of its new
pass. -/
theorem State.OpensPass.sectionHas {s m : State} {i : SourceId} {f : FrameId} {e : EntryId} {d : EntryFields}
    (h : s.OpensPass m f i e d) {g : Geometry} (hg : (s.frame f).geometry = some g)
    (hhas : ∀ h' j x, (s.group h').sections[j]? = some x → s.sectionMatches e x → s.sectionFits h' j g → x.frame = some f) :
    m.sectionHas f := by
  obtain ⟨_, _, _, _, _, hframe⟩ := h.frame
  have hlike : State.SectionsKept { s with frames := m.frames } m := .of_eq rfl h.schedule h.groups
  refine hlike.sectionHas (State.sectionHas_of_kept (y := g) ?_ fun b h' j x hb hx hmatch hfit => ?_)
  · show (m.frame f).geometry = _
    rw [hframe]
    exact hg
  · have hb' : (m.frame f).entry = some b := hb
    rw [hframe] at hb'
    exact hhas h' j x hx (Option.some.inj hb' ▸ hmatch) hfit

/-- From `s` to `t` source `i` has opened a new pass of frame `f`: by way of `m`, in which the mosaic unit has not been told. -/
structure State.StartsPass (s m t : State) (i : SourceId) (f : FrameId) (e : EntryId) (d : EntryFields) : Prop where
  opens   : (s.heard i).OpensPass m f i e d
  source  : t.source i = ((s.heard i).source i).bound { frame := f, pass := (m.frame f).pass, geometry := d.geometry }
  frame   : ∃ member held, t.frame f = { m.frame f with mosaic := member, pins := { (m.frame f).pins with retain := held } }
  memory  : t.memory = s.memory
  views   : t.views = m.views
  pool    : t.pool = m.pool
  cursors : t.cursors = m.cursors
  queue   : t.writeQueue = m.writeQueue
  notices : m.SaysOnly [0, 10, 11] t
  told    : ∀ n, (s.client n).levels[(0 : Fin 16)] ≠ 0 → t.hasFiled n (.frame f) (.frameBound i .newPass)
  gathers : m.sectionHas f → ∀ h k, (m.frame f).mosaic = some (h, k) → m.sectionFrame h k = some f →
    (m.group h).state ≠ .undefined →
      (t.frame f).mosaic = some (h, k) ∧ t.sectionFrame h k = some f ∧ m.regathers t h k .newPass

section Starts
variable {s : State} {i : SourceId} {frequency : Nat} {drum : DrumClass} {rate : LineRate} {f : FrameId} {e : EntryId}
  {d : EntryFields}

theorem exec_start_newPass (hidle : (s.source i).state = .idle) (hunbound : (s.source i).binding = none) (r : s.atRest)
    (hset : s.clock.isSet = true)
    (hchosen : s.chosenEntry { frequency := frequency, drum := drum, rate := rate } = some (e, d))
    (hkey : ∀ k, s.holdsKey k e d ↔ k = f)
    (hstate : (s.frame f).state = .complete ∨ (s.frame f).state = .partialOnly
      ∨ (s.frame f).state = .settling ∧ (s.frame f).entry ≠ some e)
    (hg : (s.frame f).geometry = some d.geometry) (hpass : (s.frame f).pass < 15) :
    ∃ m t, exec (.start i frequency drum rate) s = .next t ∧ s.StartsPass m t i f e d := by
  have hbind := State.bindScheduled_newPass (s := s.heard i) (i := i) hkey hstate hg hpass
  have hopens := (s.heard i).passOpened_opens f i e d
  have hmemory := (((s.heard i).newPass_moves f i e d).trans (State.handOn_moves _ i f .newPass true false)).memory
  rw [State.newPass_eq] at hmemory
  generalize (s.heard i).passOpened f i e d = m at hbind hopens hmemory
  obtain ⟨_, _, _, _, _, hmframe⟩ := hopens.frame
  have htell := m.tellNewPass_remosaics f
  have hsections := m.tellNewPass_sectionsKept f
  have hregathers : ∀ h k, (m.frame f).mosaic = some (h, k) → m.sectionFrame h k = some f → (m.group h).state ≠ .undefined →
      m.regathers (m.tellNewPass f) h k .newPass := fun h k hm hsection hdef =>
    State.tellNewPass_regathers hm hsection hdef (by rw [hmframe]; rfl)
  generalize m.tellNewPass f = u at hbind htell hsections hregathers hmemory
  have huframe : u.frame f = m.frame f := hsections.frame f
  have hugeometry : (u.frame f).geometry = some d.geometry := by rw [huframe, hmframe]; exact hg
  have husource : u.source i = (s.heard i).source i := by
    rw [htell.source]
    simp only [State.source, hopens.sources]
  have hhands := State.handOn_handsOn hugeometry i .newPass
  have hrest := (hopens.restKept.trans htell.restKept).trans (u.handOn_restKept i f .newPass)
  have hkept := State.handOn_of_sectionHas hugeometry i .newPass
  refine ⟨m, _, exec_start_of_scheduled r hidle hunbound hset hchosen hbind hrest, ?_⟩
  generalize u.handOn i f .newPass true false = t at hhands hmemory hkept ⊢
  refine ⟨hopens, ?_, ?_, hmemory, hhands.views.trans (congrArg State.views htell.only :),
    hhands.pool.trans (congrArg State.pool htell.only :), hhands.cursors.trans (congrArg State.cursors htell.only :),
    hhands.queue.trans (congrArg State.writeQueue htell.only :), (htell.notices.mono (by decide)).trans hhands.notices,
    fun n hn => hhands.told n ?_, fun hhas h k hm hsection hdef => ?_⟩
  · rw [hhands.source, husource, huframe]
  · rw [← huframe]
    exact hhands.frame
  · rw [htell.notices.levels, hopens.notices.levels]
    exact hn
  · rw [hkept (hsections.sectionHas hhas)]
    refine ⟨?_, ?_, ?_⟩
    · rw [State.frame_raise, State.frame_setSource, huframe, hm]
    · rw [State.raise_eq]
      exact (hsections.sectionFrame h k).trans hsection
    · exact ((hregathers h k hm hsection hdef).setSource i _).raise (.frame f) (d := .frameBound i .newPass)
        (show (11 : Fin 16) ≠ 0 by decide)

theorem exec_start_expected (hidle : (s.source i).state = .idle) (hunbound : (s.source i).binding = none) (r : s.atRest)
    (hset : s.clock.isSet = true)
    (hchosen : s.chosenEntry { frequency := frequency, drum := drum, rate := rate } = some (e, d))
    (hkey : ∀ k, s.holdsKey k e d ↔ k = f) (hexpected : (s.frame f).state = .expected) :
    ∃ m t, exec (.start i frequency drum rate) s = .next t ∧ (s.heard i).TakesExpected m f i e d
      ∧ m.HandsOn t i f d.geometry .expected ∧ t.memory = s.memory := by
  have hbind := State.bindScheduled_expected (s := s.heard i) (i := i) hkey hexpected
  have htakes := (s.heard i).takeExpected_takes f i e d
  have hmoves := ((s.heard i).takeExpected_moves f i e d).trans (State.handOn_moves _ i f .expected true false)
  generalize (s.heard i).takeExpected f i e d = m at hbind htakes hmoves
  have hgeometry : (m.frame f).geometry = some d.geometry := by rw [htakes.frame]
  have hrest := htakes.restKept.trans (m.handOn_restKept i f .expected)
  exact ⟨m, _, exec_start_of_scheduled r hidle hunbound hset hchosen hbind hrest, htakes, State.handOn_handsOn hgeometry i .expected,
    hmoves.memory⟩

end Starts

/-- Settles O20: the new pass, and the EXPECTED frame taken. -/
theorem startOpensANewPassOrTakesTheExpectedFrame : Obligations.StartOpensANewPassOrTakesTheExpectedFrame := by
  intro i frequency drum rate f e d s hidle hunbound r hset hchosen hkey g bound
  refine ⟨fun hstate hg hpass => ?_, fun hexpected => ?_⟩
  · obtain ⟨m, t, hexec, hstarts⟩ := exec_start_newPass hidle hunbound r hset hchosen hkey hstate hg hpass
    have hopens := hstarts.opens
    have hsays := hstarts.notices
    obtain ⟨_, _, _, _, _, hmframe⟩ := hopens.frame
    simp only [State.frame_setSource] at hmframe
    obtain ⟨member, held, htframe⟩ := hstarts.frame
    have hrows : (t.frame f).rowMap = (m.frame f).rowMap := by rw [htframe]
    have hview : (t.frame f).view = (m.frame f).view := by rw [htframe]
    have hsettledAt : (t.frame f).settledAt = (m.frame f).settledAt := by rw [htframe]
    have htview : ∀ w, t.view w = m.view w := fun w => by simp only [State.view, hstarts.views]
    have htpool : ∀ p, t.poolRow p = m.poolRow p := fun p => by simp only [State.poolRow, hstarts.pool]
    have htcursor : ∀ c, t.cursor c = m.cursor c := fun c => by simp only [State.cursor, hstarts.cursors]
    have hclock : s.clock.time = (s.clock.day, s.clock.second) := by rw [DayClock.time, if_pos hset]
    have hverdict : s.verdict f = decide (s.storeConfig.completePerMille * g.rows ≤ (s.frame f).coverage * 1000) := by
      rw [State.verdict, Frame.meetsComplete, hg]
    refine ⟨t, hexec, ⟨?_, ?_⟩, hstarts.memory, ?_, ?_, ?_, ?_, ⟨fun howed => ?_, fun hquiet => ?_⟩, ?_, fun v hnone hv hlt => ?_,
      fun hnone hfull => ?_, fun o v ho hv hlt => ?_, fun h k hm hsection hdef hhas => ?_⟩
    · rw [hstarts.source, hmframe, State.bound_heard]
      rfl
    · refine ⟨?_, ?_, ?_, ?_, ?_, ?_, ?_, ?_, ?_, ?_, ?_, ?_, ?_, ?_, hstarts.told⟩
      all_goals rw [htframe, hmframe]
      · exact hg
      · rfl
    · rw [hrows]
      exact hopens.states
    · rw [htframe, hmframe]
    · rw [htframe, hmframe]
    · rw [htframe, hmframe]
    · obtain ⟨hat, htold⟩ := hopens.owed howed
      refine ⟨hsettledAt.trans (hat.trans (congrArg some hclock)), fun n hn => ?_⟩
      rw [← hverdict]
      exact hsays.hasFiled (htold n hn) (show (1 : Fin 16) ∉ [0, 10, 11] by decide)
    · obtain ⟨hat, hsaid⟩ := hopens.quiet hquiet
      have hall : (s.heard i).SaysOnly [0, 10, 11, 12] t := (hsaid.mono (by decide)).trans (hsays.mono (by decide))
      exact ⟨hsettledAt.trans hat, fun n p hp _ hkind => (hall.pairs n p (by rw [hkind]; decide)).mp hp⟩
    · rw [hstarts.queue]
      exact hopens.ops
    · have hwithout := State.viewWithout_of_none (s := s.heard i) hnone
      obtain ⟨hfview, hviews⟩ := hopens.opened v ((hwithout v).trans hv) fun w hw => by rw [hwithout]; exact hlt w hw
      exact ⟨hview.trans hfview, (htview v).trans ((hviews v).trans (if_pos rfl))⟩
    · have hwithout := State.viewWithout_of_none (s := s.heard i) hnone
      obtain ⟨hfview, hviews⟩ := hopens.unopened fun w => by rw [hwithout]; exact hfull w
      refine ⟨hview.trans hfview, Vector.ext fun w hw => ?_⟩
      exact ((htview ⟨w, hw⟩).trans (hviews ⟨w, hw⟩)).trans (hwithout ⟨w, hw⟩)
    · have hwithout := State.viewWithout_of_some (s := s.heard i) ho
      have hfree : (if v = o then none else s.view v) = none := by
        rcases hv with hv | hv
        · exact if_pos hv
        · rw [hv, ite_self]
      obtain ⟨hfview, hviews⟩ := hopens.opened v ((hwithout v).trans hfree) fun w hw => by
        obtain ⟨hwo, hw'⟩ := hlt w hw
        rw [hwithout, if_neg hwo]
        exact hw'
      refine ⟨hview.trans hfview, (htview v).trans ((hviews v).trans (if_pos rfl)), fun w hw => ?_, fun p h hp => ?_, ?_,
        fun c k hk ha => ?_⟩
      · rw [htview, hviews, if_neg hw, hwithout]
        rfl
      · have hpool := hopens.pool p
        rw [show (s.heard i).poolRow p = some h from hp, show ((s.heard i).frame f).view = some o from ho] at hpool
        rw [htpool, hpool]
        by_cases hho : h.view = o
        · simp [Option.filter, hho]
        · simp [Option.filter, hho, Ne.symm hho]
      · rw [hrows]
        exact hopens.rows (by rw [show ((s.heard i).frame f).view = some o from ho]; exact Option.some_ne_none o)
      · have hloser := State.viewLosers_of_previous (s := s.heard i) ho hk ha
        obtain ⟨k', hk', hlost⟩ := hopens.losers c hloser
        have hkk : k' = k := CursorSlot.opened.inj (hk'.symm.trans hk)
        refine ⟨by rw [htcursor, hlost, hkk], fun hlevel => ?_⟩
        obtain ⟨q, howner, hfiled⟩ := hopens.told c hloser hlevel
        obtain ⟨p, hp, ho, hd⟩ := hsays.hasFiled hfiled (show (12 : Fin 16) ∉ [0, 10, 11] by decide)
        exact ⟨p, hp, ho, q, howner, hd⟩
    · have hmgroup : ∀ h, m.group h = s.group h := fun h => by
        simp only [State.group, hopens.groups]
        rfl
      have hmm : (m.frame f).mosaic = some (h, k) := by rw [hmframe]; exact hm
      have hmsection : m.sectionFrame h k = some f := (State.sectionFrame_congr hopens.groups h k).trans hsection
      obtain ⟨hmember, hkept, hgathers⟩ := hstarts.gathers (hopens.sectionHas (g := g) hg hhas) h k hmm hmsection
        (by rw [hmgroup]; exact hdef)
      have hfromStart := State.regathers_of_carried (s := s.heard i) (.of_eq hopens.groups h) hopens.notices.levels hgathers
      exact ⟨hmember, hkept, hfromStart⟩
  · obtain ⟨m, t, hexec, htakes, hhands, hmemory⟩ := exec_start_expected hidle hunbound r hset hchosen hkey hexpected
    have hmframe := htakes.frame
    simp only [State.frame_setSource] at hmframe
    obtain ⟨member, held, htframe⟩ := hhands.frame
    have hmsource : m.source i = (s.heard i).source i := by simp only [State.source, htakes.sources]
    have htcursor : ∀ c, t.cursor c = (s.cursor c).refitOn f d.rows := fun c => by
      refine Eq.trans ?_ (htakes.cursors c)
      simp only [State.cursor, hhands.cursors]
    have hrows : (t.frame f).rowMap = s.freshMap f d.rows := by
      rw [htframe, hmframe]
      rfl
    have hmclient : ∀ n, m.client n = s.client n := fun n => by
      simp only [State.client, htakes.clients]
      rfl
    obtain ⟨hlength, hfresh⟩ := s.freshMap_spec f d.rows
    refine ⟨t, hexec, ⟨?_, ?_⟩, hmemory, ?_, ?_, ?_, ?_, ?_, fun c k hk ha => ?_, fun c hc => ?_⟩
    · rw [hhands.source, hmsource, hmframe, State.bound_heard]
      rfl
    · refine ⟨?_, ?_, ?_, ?_, ?_, ?_, ?_, ?_, ?_, ?_, ?_, ?_, ?_, ?_, fun n hn => hhands.told n (by rw [hmclient]; exact hn)⟩
      all_goals rw [htframe, hmframe]
      all_goals rfl
    · rw [hrows, hlength]
    · rw [hrows]
      intro x hx
      obtain ⟨n, hn⟩ := List.getElem?_of_mem hx
      exact (hfresh n x hn).1
    · rw [htframe, hmframe]
    · rw [htframe, hmframe]
    · rw [htframe, hmframe]
    · rw [htcursor, Cursor.refitOn_of_onFrame hk ha, CursorFields.refit_eq]
    · rw [htcursor, Cursor.refitOn_of_not_onFrame hc]

end Sys2Proof.Machine
end

section
/-! SUPPORT. The end of an event (log 12): what it leaves of frames and notices, and of a port without a command in progress. -/

namespace Sys2Proof.Machine

/-- From `s` to `t` searches and read commands have gone on: no frame has changed, only MOSAIC_JOINED has been raised, no
cursor has got a command, and a port has changed only where a cursor of its client had one. -/
structure State.Finishes (s t : State) : Prop where
  frames  : t.frames = s.frames
  notices : s.SaysOnly [10] t
  jobs    : ∀ c, (s.cursor c).job = none → (t.cursor c).job = none
  ports   : ∀ n, (∀ c, ownerOf c = n → (s.cursor c).job = none) → t.port n = s.port n

section Finishes
variable {s t u : State}

theorem State.Finishes.refl (s : State) : s.Finishes s := ⟨rfl, .refl s, fun _ h => h, fun _ _ => rfl⟩

theorem State.Finishes.trans (h : s.Finishes t) (k : t.Finishes u) : s.Finishes u where
  frames := k.frames.trans h.frames
  notices := h.notices.trans k.notices
  jobs c hc := k.jobs c (h.jobs c hc)
  ports n hn := (k.ports n fun c hc => h.jobs c (hn c hc)).trans (h.ports n hn)

theorem State.Finishes.foldl {α : Type} {g : State → α → State} (hg : ∀ (s : State) (a : α), s.Finishes (g s a)) :
    ∀ (l : List α) (s : State), s.Finishes (l.foldl g s)
  | [], s => .refl s
  | a :: l, s => (hg s a).trans (State.Finishes.foldl hg l (g s a))

theorem State.Finishes.ite {p : Prop} [Decidable p] (h : s.Finishes t) (k : s.Finishes u) : s.Finishes (if p then t else u) := by
  split
  · exact h
  · exact k

/-- A change of none of the tables concerned. -/
theorem State.Finishes.of_eq (hf : t.frames = s.frames) (hl : t.clients = s.clients) (hc : t.cursors = s.cursors)
    (hp : t.ports = s.ports) : s.Finishes t :=
  ⟨hf, .of_eq hl, fun c h => by simpa [State.cursor, hc] using h, fun n _ => by simp [State.port, hp]⟩

/-- A cursor with a command changes, and its port with it. -/
theorem State.Finishes.ofCommand {c : CursorId} (hjob : (s.cursor c).job ≠ none) (hf : t.frames = s.frames)
    (hl : t.clients = s.clients) (hc : ∀ d, d ≠ c → t.cursor d = s.cursor d)
    (hp : ∀ n, n ≠ ownerOf c → t.port n = s.port n) : s.Finishes t := by
  refine ⟨hf, .of_eq hl, fun d hd => ?_, fun n hn => hp n fun h => hjob (hn c h.symm)⟩
  rw [hc d fun h => hjob (h ▸ hd)]
  exact hd

end Finishes

/-! ### The search (R107 to R110) -/

theorem State.placeRead_finishes (s : State) (h : ReadHolder) (f : FrameId) (row : Nat) (d : DrumClass) (p : Option PoolRow) :
    s.Finishes (s.placeRead h f row d p) := by
  unfold State.placeRead
  cases h <;> exact .of_eq rfl rfl rfl rfl

theorem State.testJoined_finishes (b s : State) (g : GroupId) : s.Finishes (b.testJoined s g) := by
  unfold State.testJoined
  refine .ite ?_ (.refl s)
  have hentered : s.Finishes (b.enterGroup s g .joined) := .of_eq rfl rfl rfl rfl
  refine hentered.trans ?_
  have hsays : ∀ found weak, (b.enterGroup s g .joined).SaysOnly [10]
      ((b.enterGroup s g .joined).raise (.group g) (.mosaicJoined found weak)) := fun _ _ => .raise _ _ List.mem_cons_self
  simp only [State.raise_eq] at hsays ⊢
  exact ⟨rfl, hsays _ _, fun _ h => h, fun _ _ => rfl⟩

theorem State.queueSeam_finishes (s : State) (g : GroupId) (k : Nat) : s.Finishes (s.queueSeam g k) := by
  unfold State.queueSeam
  split
  · exact .refl s
  · exact .ite (.refl s) (.ite (.of_eq rfl rfl rfl rfl) (.of_eq rfl rfl rfl rfl))

theorem State.testJoining_finishes (b s : State) (g : GroupId) : s.Finishes (b.testJoining s g) := by
  have hentered : s.Finishes (b.enterGroup s g .joining) := .of_eq rfl rfl rfl rfl
  exact .ite ((hentered.trans (State.Finishes.foldl (fun s k => s.queueSeam_finishes g k) _ _)).trans
    (State.testJoined_finishes _ _ _)) (.refl s)

theorem State.recordSeam_finishes (s : State) (x : Search) : s.Finishes (s.recordSeam x) := by
  have hresult : s.Finishes (({ s.modifySeam x.group x.seam (fun m => m.withResult x s.storeConfig.seamAcceptLimit) with
    engine := none } : State).recomputeHeight x.group) := .of_eq rfl rfl rfl rfl
  exact (hresult.trans (State.testJoining_finishes s _ _)).trans (State.testJoined_finishes s _ _)

theorem State.keepRow_finishes (s : State) (x : Search) (p : Option (List Byte)) : s.Finishes (s.keepRow x p) :=
  .of_eq rfl rfl rfl rfl

theorem State.runSearch_finishes (fuel : Nat) (s : State) : s.Finishes (s.runSearch fuel) := by
  induction fuel generalizing s with
  | zero => exact .refl s
  | succ fuel ih =>
    unfold State.runSearch
    split
    · exact .refl s
    · split
      · exact s.recordSeam_finishes _
      · exact .ite (s.placeRead_finishes _ _ _ _ _) ((s.keepRow_finishes _ _).trans (ih _))

theorem State.carrySearch_finishes (s : State) : s.Finishes s.carrySearch := by
  unfold State.carrySearch
  split
  · exact .refl s
  · exact .ite (.refl s) (s.runSearch_finishes _)

/-! ### Read commands (R144 to R148) -/

theorem State.parkJob_finishes {s : State} {c : CursorId} (h : (s.cursor c).job ≠ none) (j : ReadJob) (p : JobPhase) :
    s.Finishes (s.parkJob c j p) := by
  refine .ofCommand h rfl rfl (fun d hd => ?_) fun _ _ => rfl
  unfold State.parkJob
  rw [State.modifyCursor_eq, State.cursor_setCursor, if_neg hd]

theorem State.finishJob_finishes {s : State} {c : CursorId} (h : (s.cursor c).job ≠ none) (x : CursorFields) (j : ReadJob)
    (st : Status) : s.Finishes (s.finishJob c x j st) := by
  refine .ofCommand h rfl rfl (fun d hd => ?_) fun n hn => ?_
  · unfold State.finishJob State.answer
    rw [State.cursor_setPort, State.cursor_setCursor, if_neg hd]
  · unfold State.finishJob State.answer
    rw [State.port_setPort, if_neg hn, State.port_setCursor]

theorem State.runJob_finishes (fuel : Nat) (s : State) (c : CursorId) : s.Finishes (s.runJob fuel c) := by
  induction fuel generalizing s with
  | zero => exact .refl s
  | succ fuel ih =>
    unfold State.runJob
    split
    · next x j hx hj =>
      have hjob : (s.cursor c).job ≠ none := by rw [hj]; exact Option.some_ne_none j
      split
      · exact State.finishJob_finishes hjob _ _ _
      · refine .ite (State.finishJob_finishes hjob _ _ _) ?_
        split
        · exact (State.parkJob_finishes hjob _ _).trans (ih _)
        · refine .ite (State.parkJob_finishes hjob _ _) ((s.placeRead_finishes _ _ _ _ _).trans (State.parkJob_finishes ?_ _ _))
          unfold State.placeRead
          rw [State.cursor_setHolder]
          exact hjob
    · exact .refl s
    · exact .refl s

theorem State.resumeJobs_finishes (s : State) : s.Finishes s.resumeJobs := by
  refine State.Finishes.foldl (fun s c => ?_) _ s
  unfold State.resumeJob
  split
  · exact .ite (s.runJob_finishes _ _) (.refl s)
  · exact .refl s

/-! ### The end of an event -/

/-- A source that is IDLE and unbound holds no START. -/
def State.noStartWaits (s : State) : Prop :=
  ∀ i, (s.source i).held ≠ none → (s.source i).state = .idle → (s.source i).binding.isSome = true

theorem State.takeHeldStarts_of_noStartWaits {s : State} (h : s.noStartWaits) :
    allSources.foldl (fun s i => s.takeHeldStart i) s = s := by
  have hone : ∀ i, s.takeHeldStart i = s := fun i => by
    unfold State.takeHeldStart
    dsimp only
    split
    · rfl
    · next hheld =>
      refine if_neg fun ⟨hidle, hunbound⟩ => ?_
      have hbound := h i (by rw [hheld]; exact Option.some_ne_none _) hidle
      rw [Option.isNone_iff_eq_none.mp hunbound] at hbound
      exact absurd hbound (by decide)
  have hall : ∀ l : List SourceId, l.foldl (fun s i => s.takeHeldStart i) s = s := fun l => by
    induction l with
    | nil => rfl
    | cons i l ih => rw [List.foldl_cons, hone, ih]
  exact hall _

theorem State.closeEvent_finishes {s : State} (h : s.noStartWaits) : s.Finishes s.closeEvent := by
  unfold State.closeEvent
  rw [State.takeHeldStarts_of_noStartWaits h]
  exact s.carrySearch_finishes.trans (State.resumeJobs_finishes _)

end Sys2Proof.Machine
end

section
/-! SUPPORT. A frame that becomes FREE (R78): what it leaves of the other frames, the cursors, the sources and the ports. -/

namespace Sys2Proof.Machine

/-- The source is as it was, but for the head of its buffer. -/
def Source.SameButHead (x y : Source) : Prop := y = { x with head := y.head }

/-- From `s` to `t` frame `f` has become FREE: its cursors are not open any more, and of the other frames only these cursors'
holds have changed. -/
structure State.Frees (s t : State) (f : FrameId) : Prop where
  self    : t.frame f = .freeWith (next16 (s.frame f).stamp)
  others  : ∀ g, g ≠ f → t.frame g = (s.frame g).withRetain (fun c => (s.cursor c).onFrame f) false
  sources : ∀ i, (s.source i).SameButHead (t.source i)
  kept    : ∀ c, (s.cursor c).onFrame f = false → (t.cursor c).slot = (s.cursor c).slot
  lost    : ∀ c, (s.cursor c).onFrame f = true → (t.cursor c).openFields = none
  jobs    : ∀ c, (s.cursor c).job = none → (t.cursor c).job = none
  tags    : ∀ n, (t.port n).tag = (s.port n).tag
  notices : s.SaysOnly [10, 11, 12] t

/-! ### The write queue's part (R125) -/

theorem State.clearOps_spec (s : State) (f : FrameId) :
    ((s.staleOps f).removeUnissued f) = { s with
        writeQueue := ((s.staleOps f).removeUnissued f).writeQueue, sources := ((s.staleOps f).removeUnissued f).sources }
      ∧ ∀ i, (s.source i).SameButHead (((s.staleOps f).removeUnissued f).source i) := by
  unfold State.removeUnissued
  split
  · refine ⟨rfl, fun i => ?_⟩
    simp only [State.readyWaiting, State.source, Vector.getElem_map]
    unfold Source.SameButHead
    split
    · rfl
    · rfl
  · exact ⟨rfl, fun i => rfl⟩

/-! ### The reads that vanish (R124) -/

/-- From `s` to `t` reads have been marked or removed, and the commands they served take their rows anew. -/
structure State.MarksReads (s t : State) : Prop where
  only  : t = { s with holders := t.holders, seamHolder := t.seamHolder, cursors := t.cursors }
  slots : ∀ c, (t.cursor c).slot = (s.cursor c).slot
  jobs  : ∀ c, (t.cursor c).job.isSome = (s.cursor c).job.isSome

theorem State.MarksReads.refl (s : State) : s.MarksReads s := ⟨rfl, fun _ => rfl, fun _ => rfl⟩

theorem State.MarksReads.trans {s t u : State} (h : s.MarksReads t) (k : t.MarksReads u) : s.MarksReads u :=
  ⟨by rw [k.only, h.only], fun c => (k.slots c).trans (h.slots c), fun c => (k.jobs c).trans (h.jobs c)⟩

theorem State.setHolder_marksReads (s : State) (h : ReadHolder) (x : Option ReadRequest) : s.MarksReads (s.setHolder h x) := by
  cases h <;> exact ⟨rfl, fun _ => rfl, fun _ => rfl⟩

theorem State.retakeRow_marksReads (s : State) (h : ReadHolder) : s.MarksReads (s.retakeRow h) := by
  cases h with
  | seam => exact .refl s
  | cursor c =>
    refine ⟨rfl, fun d => ?_, fun d => ?_⟩
    · rw [State.retakeRow, State.modifyCursor_eq, State.cursor_setCursor]
      split
      · next hd => rw [hd]
      · rfl
    · rw [State.retakeRow, State.modifyCursor_eq, State.cursor_setCursor]
      split
      · next hd => rw [hd]; exact Option.isSome_map
      · rfl

theorem State.markRead_marksReads (s : State) (f : FrameId) (fate : ReadFate) (h : ReadHolder) :
    s.MarksReads (s.markRead f fate h) := by
  unfold State.markRead
  split
  · exact .refl s
  · split
    · exact .refl s
    · split
      · exact (s.setHolder_marksReads h none).trans (State.retakeRow_marksReads _ h)
      · split
        · exact .refl s
        · exact s.setHolder_marksReads h _

theorem State.vanishReads_marksReads (s : State) (f : FrameId) : s.MarksReads (s.vanishReads f) := by
  have fold : ∀ (l : List ReadHolder) (u : State), u.MarksReads (l.foldl (fun s h => s.markRead f .vanished h) u) := by
    intro l
    induction l with
    | nil => exact fun u => .refl u
    | cons h l ih => exact fun u => (u.markRead_marksReads f .vanished h).trans (ih _)
  exact fold allHolders s

/-! ### Becoming FREE -/

/-- The cursors of the frame once its view is released: those not LOST with the view. -/
theorem State.ReleasesView.losers {s t : State} {f : FrameId} {cause : LostCause} (h : s.ReleasesView t f cause) (c : CursorId) :
    (s.viewLosers f c || (t.cursor c).onFrame f) = (s.cursor c).onFrame f := by
  cases hc : s.viewLosers f c with
  | false => rw [h.kept c hc, Bool.false_or]
  | true =>
    have hprevious : (s.cursor c).onPrevious f = true := by
      rw [State.viewLosers, Bool.and_eq_true] at hc
      exact hc.2
    obtain ⟨k, hk, ha⟩ := (Cursor.onPrevious_iff _ _).mp hprevious
    rw [Bool.true_or, (Cursor.onFrame_iff _ _).mpr ⟨k, hk, .inr ha⟩]

theorem State.frame_tellGone_of_ne (s : State) {f q : FrameId} (hq : q ≠ f) (c : StaleCause) :
    (s.tellGone f c).frame q = s.frame q := by
  unfold State.tellGone
  split
  · rw [State.frame_leaveSection, if_neg hq]
  · rfl

/-- The state in which the cursors of a frame becoming FREE are LOST (R78). -/
def State.deserted (s : State) (f : FrameId) : State :=
  (((s.staleOps f).removeUnissued f).releaseView f .free).loseCursors (fun c => c.onFrame f) .free

/-- Its pins and its log records' marks are gone (R78). -/
def State.unpinned (s : State) (f : FrameId) : State :=
  (s.setFrame f { s.frame f with pins := .empty }).unmarkRecords f

/-- The slot is FREE, and no reservation of it stands (R78, R159). -/
def State.vacated (s : State) (f : FrameId) : State :=
  (s.setFrame f (.freeWith (next16 (s.frame f).stamp))).dropReservations (.frame f)

theorem State.freeFrame_eq (s : State) (f : FrameId) :
    s.freeFrame f = ((((s.deserted f).unpinned f).tellGone f .free).vanishReads f).vacated f := rfl

theorem State.frame_unpinned (s : State) (f g : FrameId) :
    (s.unpinned f).frame g = if g = f then { s.frame f with pins := .empty } else s.frame g :=
  State.frame_setFrame s f g _

theorem State.frame_vacated (s : State) (f g : FrameId) :
    (s.vacated f).frame g = if g = f then .freeWith (next16 (s.frame f).stamp) else s.frame g :=
  State.frame_setFrame s f g _

/-- From `s` to `t` the cursors of frame `f` have become LOST, and the sources are as they were but for their heads. -/
structure State.Deserts (s t : State) (f : FrameId) : Prop where
  stamp   : (t.frame f).stamp = (s.frame f).stamp
  others  : ∀ g, g ≠ f → t.frame g = (s.frame g).withRetain (fun c => (s.cursor c).onFrame f) false
  sources : ∀ i, (s.source i).SameButHead (t.source i)
  kept    : ∀ c, (s.cursor c).onFrame f = false → t.cursor c = s.cursor c
  lost    : ∀ c, (s.cursor c).onFrame f = true → ∃ k, t.cursor c = { slot := .lost k, job := none }
  tags    : ∀ n, (t.port n).tag = (s.port n).tag
  notices : s.SaysOnly [12] t

theorem State.deserted_deserts (s : State) (f : FrameId) : s.Deserts (s.deserted f) f := by
  unfold State.deserted
  obtain ⟨hbonly, hbsource⟩ := s.clearOps_spec f
  generalize (s.staleOps f).removeUnissued f = b at hbonly hbsource ⊢
  have hrel := b.releaseView_releases f .free
  generalize b.releaseView f .free = r at hrel ⊢
  have hloses := r.loseCursors_loses (fun c => c.onFrame f) .free
  simp only [Cursor.onFrame_and_open] at hloses
  generalize r.loseCursors (fun c => c.onFrame f) .free = t at hloses ⊢
  have hbcursor : ∀ c, b.cursor c = s.cursor c := fun c => by simp only [State.cursor, congrArg State.cursors hbonly]
  have hbframe : ∀ g, b.frame g = s.frame g := fun g => by simp only [State.frame, congrArg State.frames hbonly]
  have hgone : ∀ c, (b.viewLosers f c || (r.cursor c).onFrame f) = (s.cursor c).onFrame f := fun c => by
    rw [hrel.losers, hbcursor]
  have hstamp : (t.frame f).stamp = (s.frame f).stamp := by
    rw [hloses.frames, hrel.frame, hbframe]
    rfl
  refine ⟨hstamp, fun g hg => ?_, fun i => ?_, fun c hc => ?_, fun c hc => ?_, fun n => ?_, ?_⟩
  · rw [hloses.frames, hrel.others g hg, Frame.withRetain_withRetain, hbframe, funext hgone]
  · have htsource : t.source i = b.source i := by
      simp only [State.source, congrArg State.sources hloses.only, congrArg State.sources hrel.only]
    rw [htsource]
    exact hbsource i
  · obtain ⟨h1, h2⟩ := Bool.or_eq_false_iff.mp ((hgone c).trans hc)
    rw [hloses.kept c h2, hrel.kept c h1, hbcursor]
  · rcases (Bool.or_eq_true _ _).mp ((hgone c).trans hc) with h1 | h2
    · obtain ⟨k, -, hlost⟩ := hrel.lost c h1
      have hstays : (r.cursor c).onFrame f = false := by rw [hlost]; rfl
      exact ⟨k, by rw [hloses.kept c hstays, hlost]⟩
    · obtain ⟨k, -, hlost⟩ := hloses.lost c h2
      exact ⟨k, hlost⟩
  · have hbport : b.port n = s.port n := by simp only [State.port, congrArg State.ports hbonly]
    rw [hloses.tags, hrel.tags, hbport]
  · have hbsays : s.SaysOnly [12] b := .of_eq (congrArg State.clients hbonly :)
    exact (hbsays.trans hrel.notices).trans hloses.notices

theorem State.freeFrame_frees (s : State) (f : FrameId) : s.Frees (s.freeFrame f) f := by
  have hdes := s.deserted_deserts f
  rw [State.freeFrame_eq]
  generalize s.deserted f = a at hdes ⊢
  have hasource : ∀ i, (a.unpinned f).source i = a.source i := fun _ => rfl
  have hacursor : ∀ c, (a.unpinned f).cursor c = a.cursor c := fun _ => rfl
  have haport : ∀ n, (a.unpinned f).port n = a.port n := fun _ => rfl
  have hasays : a.SaysOnly [10, 11, 12] (a.unpinned f) := .of_eq rfl
  have haframe := a.frame_unpinned f
  generalize a.unpinned f = b at hasource hacursor haport hasays haframe ⊢
  have hmoved := b.tellGone_remosaics f .free
  have hother : ∀ q, q ≠ f → (b.tellGone f .free).frame q = b.frame q := fun q hq => b.frame_tellGone_of_ne hq .free
  generalize b.tellGone f .free = g at hmoved hother ⊢
  have hmarked := g.vanishReads_marksReads f
  generalize g.vanishReads f = v at hmarked ⊢
  have hvframe : ∀ q, v.frame q = g.frame q := fun q => by simp only [State.frame, congrArg State.frames hmarked.only]
  have hvsource : ∀ i, v.source i = a.source i := fun i => by
    rw [← hasource, ← hmoved.source]
    simp only [State.source, congrArg State.sources hmarked.only]
  have hgcursor : ∀ c, g.cursor c = a.cursor c := fun c => (hmoved.cursor c).trans (hacursor c)
  have hvport : ∀ n, v.port n = a.port n := fun n => by
    rw [← haport]
    simp only [State.port, congrArg State.ports hmarked.only, congrArg State.ports hmoved.only]
  have hvcursor : ∀ c, (v.vacated f).cursor c = v.cursor c := fun _ => rfl
  have hvsays : v.SaysOnly [10, 11, 12] (v.vacated f) := .of_eq rfl
  have hgsays : g.SaysOnly [10, 11, 12] v := .of_eq (congrArg State.clients hmarked.only :)
  refine ⟨?_, fun q hq => ?_, fun i => ?_, fun c hc => ?_, fun c hc => ?_, fun c hc => ?_, fun n => ?_, ?_⟩
  · obtain ⟨m, ret, hg⟩ := hmoved.frames f
    rw [State.frame_vacated, if_pos rfl, hvframe, hg, haframe, if_pos rfl, ← hdes.stamp]
  · rw [State.frame_vacated, if_neg hq, hvframe, hother q hq, haframe, if_neg hq, hdes.others q hq]
  · exact (hvsource i).symm ▸ hdes.sources i
  · rw [hvcursor, hmarked.slots, hgcursor, hdes.kept c hc]
  · obtain ⟨k, hlost⟩ := hdes.lost c hc
    have hslot : ((v.vacated f).cursor c).slot = .lost k := by rw [hvcursor, hmarked.slots, hgcursor, hlost]
    rw [Cursor.openFields, hslot]
  · have hajob : (a.cursor c).job = none := by
      cases hon : (s.cursor c).onFrame f with
      | false => rw [hdes.kept c hon]; exact hc
      | true =>
        obtain ⟨k, hlost⟩ := hdes.lost c hon
        rw [hlost]
    have hvjob := hmarked.jobs c
    rw [hgcursor, hajob] at hvjob
    exact Option.isSome_eq_false_iff.mp hvjob |> Option.isNone_iff_eq_none.mp
  · exact (congrArg Port.tag (hvport n)).trans (hdes.tags n)
  · exact ((((hdes.notices.mono (by decide)).trans hasays).trans (hmoved.notices.mono (by decide))).trans hgsays).trans hvsays

end Sys2Proof.Machine
end

section
/-! SUPPORT. The minute check over all frames (R20), and O14: which frames it lapses, and which stay. -/

namespace Sys2Proof.Machine

/-! ### What the check tests -/

/-- Set pins stand on the frame: a client's, or the hold of an open cursor that is on it (R153). -/
def State.pinned (s : State) (f : FrameId) : Prop :=
  (∃ n : ClientId, (s.frame f).pins.explicit[n] = true)
    ∨ ∃ (d : CursorId) (k : CursorFields), (s.frame f).pins.retain[d] = true ∧ (s.cursor d).slot = .opened k
        ∧ (k.attachment = .current f ∨ k.attachment = .previous f)

/-- The check may lapse the frame: it does once the holds of cursors that are not on the frame have gone. -/
def State.mayLapse (s : State) (f : FrameId) : Prop := (s.frame f).state = .expected ∧ s.windowOver f ∧ ¬ s.pinned f

theorem State.windowOver_congr {s t : State} {f : FrameId} (he : (t.frame f).entry = (s.frame f).entry)
    (hd : (t.frame f).day = (s.frame f).day) (hc : t.clock = s.clock) (hs : t.schedule = s.schedule) :
    t.windowOver f ↔ s.windowOver f := by
  unfold State.windowOver State.entryAt
  rw [he, hd, hc, hs]

theorem anyMember_eq_false_iff {n : Nat} (v : Vector Bool n) : anyMember v = false ↔ ∀ k : Fin n, v[k] = false := by
  unfold anyMember
  rw [List.any_eq_false]
  constructor
  · exact fun h k => Bool.eq_false_of_not_eq_true (h _ (by simp))
  · intro h x hx
    obtain ⟨k, hk, rfl⟩ := Vector.getElem_of_mem (Vector.mem_toList_iff.mp hx)
    exact Bool.eq_false_iff.mp (h ⟨k, hk⟩)

theorem PinSet.isEmpty_iff (p : PinSet) :
    p.isEmpty = true ↔ (∀ n : ClientId, p.explicit[n] = false) ∧ ∀ c : CursorId, p.retain[c] = false := by
  rw [PinSet.isEmpty, Bool.and_eq_true, Bool.not_eq_true', Bool.not_eq_true', anyMember_eq_false_iff, anyMember_eq_false_iff]

theorem Cursor.onFrame_congr {x y : Cursor} (h : y.slot = x.slot) (f : FrameId) : y.onFrame f = x.onFrame f := by
  unfold Cursor.onFrame Cursor.openFields
  rw [h]

theorem Cursor.onFrame_of_not_open {x : Cursor} (h : x.openFields = none) (f : FrameId) : x.onFrame f = false := by
  unfold Cursor.onFrame
  rw [h]
  rfl

/-- An open cursor is on one frame at most. -/
theorem Cursor.onFrame_unique {x : Cursor} {f g : FrameId} (hf : x.onFrame f = true) (hg : x.onFrame g = true) : f = g := by
  obtain ⟨k, hk, ha⟩ := (x.onFrame_iff f).mp hf
  obtain ⟨k', hk', ha'⟩ := (x.onFrame_iff g).mp hg
  obtain rfl := CursorSlot.opened.inj (hk.symm.trans hk')
  rcases ha with ha | ha
  · rcases ha' with ha' | ha'
    · exact Attachment.current.inj (ha.symm.trans ha')
    · cases ha.symm.trans ha'
  · rcases ha' with ha' | ha'
    · cases ha.symm.trans ha'
    · exact Attachment.previous.inj (ha.symm.trans ha')

/-! ### The check, frame by frame -/

/-- From `s` to `t` the check has been over the frames of `l`: the cursors that `gone` names have become LOST, each with a frame
that the check may lapse. -/
structure State.Checked (s t : State) (l : List FrameId) (gone : CursorId → Bool) : Prop where
  cause    : ∀ c, gone c = true → ∃ f, s.mayLapse f ∧ (s.cursor c).onFrame f = true
  clock    : t.clock = s.clock
  schedule : t.schedule = s.schedule
  stays    : ∀ f, f ∉ l ∨ ¬ s.mayLapse f → t.frame f = (s.frame f).withRetain gone false
  lapsed   : ∀ f ∈ l, s.lapses f → t.frame f = .freeWith (next16 (s.frame f).stamp)
    ∧ ∀ n, (s.client n).levels[(3 : Fin 16)] ≠ 0 → t.hasFiled n (.frame f) (.expectedLapsed (s.frame f).entry)
  kept     : ∀ c, gone c = false → (t.cursor c).slot = (s.cursor c).slot
  lost     : ∀ c, gone c = true → (t.cursor c).openFields = none
  sources  : ∀ i, (s.source i).SameButHead (t.source i)
  jobs     : ∀ c, (s.cursor c).job = none → (t.cursor c).job = none
  tags     : ∀ n, (t.port n).tag = (s.port n).tag
  levels   : ∀ n, (t.client n).levels = (s.client n).levels

theorem State.Checked.nil (s : State) : s.Checked s [] (fun _ => false) where
  cause c h := by cases h
  clock := rfl
  schedule := rfl
  stays f _ := (Frame.withRetain_of_none fun _ => rfl).symm
  lapsed f hf := absurd hf List.not_mem_nil
  kept _ _ := rfl
  lost c h := by cases h
  sources _ := rfl
  jobs _ h := h
  tags _ := rfl
  levels _ := rfl

section Step
variable {s t : State} {l : List FrameId} {gone : CursorId → Bool} {f : FrameId}

theorem State.Checked.onFrame (h : s.Checked t l gone) (c : CursorId) (f : FrameId) :
    (t.cursor c).onFrame f = (!gone c && (s.cursor c).onFrame f) := by
  cases hc : gone c with
  | false => rw [Cursor.onFrame_congr (h.kept c hc)]; rfl
  | true => rw [Cursor.onFrame_of_not_open (h.lost c hc)]; rfl

/-- A frame that lapses where the check comes to it is one that it may lapse. -/
theorem State.Checked.mayLapse (h : s.Checked t l gone) (hf : f ∉ l) (hl : t.lapses f) : s.mayLapse f := by
  obtain ⟨hstate, hempty, hover⟩ := hl
  have hframe := h.stays f (.inl hf)
  rw [hframe] at hstate hempty
  obtain ⟨hexplicit, hretain⟩ := (PinSet.isEmpty_iff _).mp hempty
  refine ⟨hstate, (State.windowOver_congr (by rw [hframe]; rfl) (by rw [hframe]; rfl) h.clock h.schedule).mp hover, ?_⟩
  rintro (⟨n, hn⟩ | ⟨d, k, hd, hk, ha⟩)
  · have := hexplicit n
    rw [Frame.explicit_withRetain, hn] at this
    cases this
  · have hon : (s.cursor d).onFrame f = true := (Cursor.onFrame_iff _ _).mpr ⟨k, hk, ha⟩
    cases hgone : gone d with
    | true =>
      obtain ⟨g, ⟨-, -, hunpinned⟩, hg⟩ := h.cause d hgone
      obtain rfl := Cursor.onFrame_unique hg hon
      exact hunpinned (.inr ⟨d, k, hd, hk, ha⟩)
    | false =>
      have hheld := hretain d
      rw [Fin.getElem_fin, Frame.retain_withRetain, hgone] at hheld
      exact absurd (hd.symm.trans hheld) (by decide)

/-- The check leaves a frame alone. -/
theorem State.Checked.skip (h : s.Checked t l gone) (hf : f ∉ l) (hl : ¬ t.lapses f) : s.Checked t (l ++ [f]) gone where
  cause := h.cause
  clock := h.clock
  schedule := h.schedule
  stays g hg := h.stays g (hg.imp_left fun hg hmem => hg (List.mem_append_left _ hmem))
  lapsed g hg hs := by
    rcases List.mem_append.mp hg with hg | hg
    · exact h.lapsed g hg hs
    · obtain rfl := List.mem_singleton.mp hg
      obtain ⟨hstate, hempty, hover⟩ := hs
      have hframe : t.frame g = s.frame g := (h.stays g (.inl hf)).trans (Frame.withRetain_of_isEmpty hempty gone)
      exact absurd ⟨by rw [hframe]; exact hstate, by rw [hframe]; exact hempty,
        (State.windowOver_congr (by rw [hframe]) (by rw [hframe]) h.clock h.schedule).mpr hover⟩ hl
  kept := h.kept
  lost := h.lost
  sources := h.sources
  jobs := h.jobs
  tags := h.tags
  levels := h.levels

theorem Source.SameButHead.trans {x y z : Source} (h : x.SameButHead y) (k : y.SameButHead z) : x.SameButHead z := by
  unfold Source.SameButHead at h k ⊢
  rw [k, h]

/-- A frame lapses. -/
theorem State.Checked.lapse (h : s.Checked t l gone) (hf : f ∉ l) (hl : t.lapses f) :
    s.Checked ((t.freeFrame f).raise (.frame f) (.expectedLapsed (t.frame f).entry)) (l ++ [f])
      (fun c => gone c || (t.cursor c).onFrame f) := by
  have hmay := h.mayLapse hf hl
  have hfrees := t.freeFrame_frees f
  have hmoves := t.freeFrame_moves f
  generalize t.freeFrame f = u at hfrees hmoves ⊢
  have hframe : t.frame f = (s.frame f).withRetain gone false := h.stays f (.inl hf)
  refine ⟨fun c hc => ?_, ?_, ?_, fun g hg => ?_, fun g hg hs => ?_, fun c hc => ?_, fun c hc => ?_, fun i => ?_, fun c hc => ?_,
    fun n => ?_, fun n => ?_⟩
  · rcases (Bool.or_eq_true _ _).mp hc with hc | hc
    · exact h.cause c hc
    · rw [h.onFrame, Bool.and_eq_true] at hc
      exact ⟨f, hmay, hc.2⟩
  · rw [State.raise_clock, hmoves.clock, h.clock]
  · rw [State.raise_eq]
    exact hmoves.schedule.trans h.schedule
  · have hgf : g ≠ f := by
      rintro rfl
      exact hg.elim (fun hg => hg (by simp)) (fun hg => hg hmay)
    rw [State.frame_raise, hfrees.others g hgf,
      h.stays g (hg.imp_left fun hg hmem => hg (List.mem_append_left _ hmem)), Frame.withRetain_withRetain]
  · rcases List.mem_append.mp hg with hg | hg
    · obtain ⟨hfree, htold⟩ := h.lapsed g hg hs
      have hgf : g ≠ f := fun e => hf (e ▸ hg)
      refine ⟨?_, fun n hn => ?_⟩
      · rw [State.frame_raise, hfrees.others g hgf, hfree]
        exact Frame.withRetain_of_isEmpty (show PinSet.isEmpty .empty = true by decide) _
      · exact (hfrees.notices.hasFiled (htold n hn) (show (3 : Fin 16) ∉ [10, 11, 12] by decide)).raise
          (.inr fun e => hgf (Origin.frame.inj e))
    · obtain rfl := List.mem_singleton.mp hg
      refine ⟨?_, fun n hn => ?_⟩
      · rw [State.frame_raise, hfrees.self, hframe]
        rfl
      · rw [hframe]
        refine State.raise_hasFiled _ ?_
        rw [hfrees.notices.levels, h.levels]
        exact hn
  · obtain ⟨h1, h2⟩ := Bool.or_eq_false_iff.mp hc
    rw [State.cursor_raise, hfrees.kept c h2, h.kept c h1]
  · rw [State.cursor_raise]
    cases hon : (t.cursor c).onFrame f with
    | true => exact hfrees.lost c hon
    | false =>
      rw [hon, Bool.or_false] at hc
      have hclosed := h.lost c hc
      unfold Cursor.openFields at hclosed ⊢
      rw [hfrees.kept c hon]
      exact hclosed
  · rw [State.source_raise]
    exact (h.sources i).trans (hfrees.sources i)
  · rw [State.cursor_raise]
    exact hfrees.jobs c (h.jobs c hc)
  · rw [State.raise_eq]
    exact (hfrees.tags n).trans (h.tags n)
  · rw [State.client_raise, NoticeClient.offer_levels, hfrees.notices.levels, h.levels]

end Step

/-- The check has been over all the frames. -/
theorem State.minuteCheck_checked {s : State} (hset : s.clock.isSet = true) :
    ∃ gone, s.Checked s.minuteCheck allFrames gone := by
  have fold : ∀ l : List FrameId, l.Nodup → ∃ gone, s.Checked (l.foldl (fun s f => s.checkLapse f) s) l gone := by
    intro l
    induction l using List.reverseRecOn with
    | nil => exact fun _ => ⟨_, .nil s⟩
    | append_singleton l f ih =>
      intro hnodup
      obtain ⟨hl, -, hdisjoint⟩ := List.nodup_append.mp hnodup
      have hf : f ∉ l := fun hmem => hdisjoint f hmem f (List.mem_singleton.mpr rfl) rfl
      obtain ⟨gone, hchecked⟩ := ih hl
      rw [List.foldl_append, List.foldl_cons, List.foldl_nil]
      generalize l.foldl _ s = t at hchecked ⊢
      by_cases hlapse : t.lapses f
      · rw [State.checkLapse_of_lapses hlapse]
        exact ⟨_, hchecked.lapse hf hlapse⟩
      · rw [State.checkLapse_of_not_lapses hlapse]
        exact ⟨gone, hchecked.skip hf hlapse⟩
  rw [State.minuteCheck, if_pos hset]
  exact fold allFrames (List.nodup_finRange _)

theorem State.Checked.noStartWaits {s t : State} {l : List FrameId} {gone : CursorId → Bool} (h : s.Checked t l gone)
    (hs : s.noStartWaits) : t.noStartWaits := by
  intro i
  have hsame := h.sources i
  rw [Source.SameButHead] at hsame
  rw [hsame]
  exact hs i

/-- What the check and the end of its event make of the frames: those that lapse are FREE, and told of; those that it may not
lapse are as they were, but for holds of LOST cursors. -/
def State.LapsesOnly (s t : State) : Prop :=
  (∀ f, s.lapses f → t.frame f = .freeWith (next16 (s.frame f).stamp)
      ∧ ∀ n, (s.client n).levels[(3 : Fin 16)] ≠ 0 → t.hasFiled n (.frame f) (.expectedLapsed (s.frame f).entry))
    ∧ ∀ f, ¬ s.mayLapse f → t.frame f = { s.frame f with pins := (t.frame f).pins }
      ∧ (t.frame f).pins.explicit = (s.frame f).pins.explicit

theorem State.Checked.lapsesOnly {s t u : State} {gone : CursorId → Bool} (h : s.Checked t allFrames gone)
    (hframes : u.frames = t.frames) (hsays : t.SaysOnly [10] u) : s.LapsesOnly u := by
  have huframe : ∀ f, u.frame f = t.frame f := fun f => by simp only [State.frame, hframes]
  refine ⟨fun f hf => ?_, fun f hf => ?_⟩
  · obtain ⟨hfree, htold⟩ := h.lapsed f (mem_allFrames f) hf
    exact ⟨(huframe f).trans hfree, fun n hn => hsays.hasFiled (htold n hn) (show (3 : Fin 16) ∉ [10] by decide)⟩
  · rw [huframe, h.stays f (.inr hf)]
    exact ⟨rfl, rfl⟩

/-- A port without a command in progress is answered by the command it executes alone. -/
theorem State.Checked.answered {s t u : State} {l : List FrameId} {gone : CursorId → Bool} {n : ClientId}
    (h : s.Checked t l gone) (hjobs : ∀ c, ownerOf c = n → (s.cursor c).job = none) (st : Status) (b : List Byte)
    (hu : (t.answer n st b).Finishes u) :
    (u.port n).state = .done ∧ (u.port n).buffer = some { status := st, tag := (s.port n).tag, body := b } := by
  have hport := hu.ports n fun c hc => h.jobs c (hjobs c hc)
  rw [hport, State.answer, State.port_setPort_self, h.tags]
  exact ⟨rfl, rfl⟩

/-- A frame that stays by O14's conditions is none that the check may lapse. -/
theorem State.not_mayLapse_of {s : State} {f : FrameId}
    (h : (s.frame f).state ≠ .expected ∨ s.pinned f ∨ ¬ s.windowOver f) : ¬ s.mayLapse f := by
  rintro ⟨hstate, hover, hunpinned⟩
  exact h.elim (fun h => h hstate) (fun h => h.elim hunpinned (fun h => h hover))

end Sys2Proof.Machine
end

section
/-! PROOF. O14: the minute check of CLOCK_SECOND and of SET_CLOCK (R2, R20). -/

namespace Sys2Proof.Machine

/-- A second that enters a new minute runs the check at the new time. -/
theorem exec_clockSecond_lapsesOnly {s : State} {clock : DayClock} (r : s.noStartWaits) (hset : s.clock.isSet = true)
    (hclock : (s.clock.second + 1) % 60 = 0 ∧ s.clock.second < 86399 ∧ clock = { s.clock with second := s.clock.second + 1 }
      ∨ s.clock.second = 86399 ∧ clock = { isSet := true, second := 0, day := (s.clock.day + 1) % 65536
                                           weekday := weekdayAfter s.clock.weekday }) :
    ∃ t, exec .clockSecond s = .next t ∧ t.clock = clock ∧ ({ s with clock := clock } : State).LapsesOnly t := by
  have htick : s.clock.tick = clock ∧ clock.isSet = true ∧ clock.second % 60 = 0 := by
    rcases hclock with ⟨hminute, hlt, rfl⟩ | ⟨hlast, rfl⟩
    · exact ⟨DayClock.tick_before_midnight hlt, hset, hminute⟩
    · exact ⟨DayClock.tick_at_midnight hset hlast, rfl, rfl⟩
  obtain ⟨rfl, hset', hminute⟩ := htick
  obtain ⟨gone, hchecked⟩ := State.minuteCheck_checked (s := { s with clock := s.clock.tick }) hset'
  have hends := State.closeEvent_finishes (hchecked.noStartWaits r)
  exact ⟨_, exec_clockSecond_of_minute hset hminute, (State.closeEvent_moves _).clock.trans hchecked.clock,
    hchecked.lapsesOnly hends.frames hends.notices⟩

/-- An answer changes its port alone. -/
theorem State.answer_spec (s : State) (n : ClientId) (st : Status) (b : List Byte) :
    (s.answer n st b).frames = s.frames ∧ (s.answer n st b).clock = s.clock ∧ s.SaysOnly [10] (s.answer n st b)
      ∧ (s.noStartWaits → (s.answer n st b).noStartWaits) := ⟨rfl, rfl, .of_eq rfl, id⟩

/-- SET_CLOCK runs the check at the time it loads, and its port is answered. -/
theorem exec_setClock_lapsesOnly {s : State} (r : s.noStartWaits) {n : ClientId} (h : s.accepts n [.system]) (tag : Nat)
    {second day code : Nat} {w : Weekday} (hsec : second ≤ 86399) (hw : weekdayOfCode code = some w) :
    ∃ t, exec (.setClock n tag second day code) s = .next t
      ∧ t.clock = { isSet := true, second := second, day := day, weekday := w }
      ∧ ({ s with clock := { isSet := true, second := second, day := day, weekday := w } } : State).LapsesOnly t
      ∧ (s.jobsOk → (t.port n).state = .done ∧ (t.port n).buffer = some { status := .ok, tag := tag, body := [] }) := by
  set now : State := { s with clock := { isSet := true, second := second, day := day, weekday := w } }
  obtain ⟨gone, hchecked⟩ := State.minuteCheck_checked (s := now.beginCommand n tag) rfl
  obtain ⟨hframes, hclock, hsays, hwaits⟩ := (now.beginCommand n tag).minuteCheck.answer_spec n .ok []
  have hends := State.closeEvent_finishes (hwaits (hchecked.noStartWaits r))
  refine ⟨_, exec_setClock h tag hsec hw, (State.closeEvent_moves _).clock.trans (hclock.trans hchecked.clock),
    hchecked.lapsesOnly (hends.frames.trans hframes) (hsays.trans hends.notices), fun hjobs => ?_⟩
  have hidle : ∀ c, ownerOf c = n → (s.cursor c).job = none := fun c hc => by
    by_contra hjob
    obtain ⟨hbusy, -⟩ := hjobs c (Option.isSome_iff_ne_none.mpr hjob)
    obtain ⟨hstate, -⟩ := h
    rw [hc] at hbusy
    rw [hbusy] at hstate
    exact hstate.elim (fun h => by cases h) (fun h => by cases h)
  have hanswered := hchecked.answered hidle .ok [] hends
  rwa [State.beginCommand, State.port_setPort_self] at hanswered

/-- Settles O14: every frame that lapses is FREE and told of, and every one that the check may not lapse stays. -/
theorem minuteCheckLapsesPassedFrames : Obligations.MinuteCheckLapsesPassedFrames := by
  intro c clock s r hcase now pinned
  have hwaits : s.noStartWaits := fun i hheld => r.1 i (Option.isSome_iff_ne_none.mpr hheld)
  have hall : ∃ t, exec c s = .next t ∧ t.clock = clock ∧ now.LapsesOnly t
      ∧ ∀ n tag second day code, c = .setClock n tag second day code → s.jobsOk →
        (t.port n).state = .done ∧ (t.port n).buffer = some { status := .ok, tag := tag, body := [] } := by
    rcases hcase with ⟨rfl, hset, hclock⟩ | ⟨n, tag, second, day, code, w, rfl, hacc, hsec, hw, rfl⟩
    · obtain ⟨t, hexec, htclock, hlapses⟩ := exec_clockSecond_lapsesOnly hwaits hset hclock
      exact ⟨t, hexec, htclock, hlapses, fun n tag second day code h => by cases h⟩
    · obtain ⟨t, hexec, htclock, hlapses, hport⟩ := exec_setClock_lapsesOnly hwaits hacc tag (day := day) hsec hw
      exact ⟨t, hexec, htclock, hlapses, fun _ _ _ _ _ h => by cases h; exact hport⟩
  obtain ⟨t, hexec, htclock, ⟨hlapsed, hstays⟩, hport⟩ := hall
  exact ⟨t, hexec, htclock, hlapsed, fun f _ hf => hstays f (State.not_mayLapse_of (.inr hf)),
    fun f hf => hstays f (State.not_mayLapse_of (.inl hf)), hport⟩

end Sys2Proof.Machine
end

section
/-! SUPPORT. The read commands in progress (R139, R175) and the sources under the shared operations: what leaves each source
as it was but for its head, and no cursor or port with a command that it had not. -/

namespace Sys2Proof.Machine

/-- From `s` to `t` no source has changed but in its head, no cursor has got a command, and a command in progress is still that
of an EXECUTING port, on one cursor. -/
structure State.Tracks (s t : State) : Prop where
  sources : ∀ i, (s.source i).SameButHead (t.source i)
  idle    : ∀ c, (s.cursor c).job = none → (t.cursor c).job = none
  jobs    : s.jobsOk → t.jobsOk

theorem State.Tracks.refl (s : State) : s.Tracks s := ⟨fun _ => rfl, fun _ => id, id⟩

theorem State.Tracks.trans {s t u : State} (h : s.Tracks t) (k : t.Tracks u) : s.Tracks u :=
  ⟨fun i => (h.sources i).trans (k.sources i), fun c hc => k.idle c (h.idle c hc), fun x => k.jobs (h.jobs x)⟩

theorem State.Tracks.foldl {α : Type} {g : State → α → State} (hg : ∀ (s : State) (a : α), s.Tracks (g s a)) :
    ∀ (l : List α) (s : State), s.Tracks (l.foldl g s)
  | [], s => .refl s
  | a :: l, s => (hg s a).trans (State.Tracks.foldl hg l (g s a))

theorem State.Tracks.ite {s t u : State} {p : Prop} [Decidable p] (h : s.Tracks t) (k : s.Tracks u) :
    s.Tracks (if p then t else u) := by
  split
  · exact h
  · exact k

/-- A further operation that is taken only sometimes. -/
theorem State.Tracks.iteThen {s t u : State} {p : Prop} [Decidable p] (h : s.Tracks t) (k : t.Tracks u) :
    s.Tracks (if p then u else t) := .ite (h.trans k) h

/-! ### Commands in progress -/

theorem ne_none_of_isSome {α : Type} {x : Option α} (h : x.isSome = true) : x ≠ none := Option.isSome_iff_ne_none.mp h

/-- Where cursors have at most the commands they had and an EXECUTING port is EXECUTING still, the commands stay right. -/
theorem State.jobsOk_of_fewer {s t : State} (hj : ∀ c, (s.cursor c).job = none → (t.cursor c).job = none)
    (hp : ∀ n, (s.port n).state = .executing → (t.port n).state = .executing) (h : s.jobsOk) : t.jobsOk := by
  intro c hc
  have hs : (s.cursor c).job.isSome = true := Option.isSome_iff_ne_none.mpr fun hn => ne_none_of_isSome hc (hj c hn)
  obtain ⟨hport, hother⟩ := h c hs
  exact ⟨hp _ hport, fun c' ho hne => hj c' (hother c' ho hne)⟩

/-- Where one command has ended, its port may have answered. -/
theorem State.jobsOk_of_ended {s t : State} {c : CursorId} (hjob : (s.cursor c).job ≠ none) (hc : (t.cursor c).job = none)
    (hd : ∀ d, d ≠ c → t.cursor d = s.cursor d) (hp : ∀ n, n ≠ ownerOf c → t.port n = s.port n) (h : s.jobsOk) :
    t.jobsOk := by
  intro d hdjob
  have hne : d ≠ c := fun e => ne_none_of_isSome hdjob (e ▸ hc)
  rw [hd d hne] at hdjob
  have howner : ownerOf d ≠ ownerOf c := fun e =>
    ne_none_of_isSome hdjob ((h c (Option.isSome_iff_ne_none.mpr hjob)).2 d e hne)
  obtain ⟨hport, hother⟩ := h d hdjob
  refine ⟨by rw [hp _ howner]; exact hport, fun d' ho hd' => ?_⟩
  by_cases hdc : d' = c
  · rw [hdc]; exact hc
  · rw [hd d' hdc]; exact hother d' ho hd'

/-! ### Single writes -/

/-- A change of neither a source, nor a cursor's having a command, nor a port's state. -/
theorem State.Tracks.of_fewer {s t : State} (hs : ∀ i, (s.source i).SameButHead (t.source i))
    (hj : ∀ c, (s.cursor c).job = none → (t.cursor c).job = none)
    (hp : ∀ n, (s.port n).state = .executing → (t.port n).state = .executing) : s.Tracks t :=
  ⟨hs, hj, State.jobsOk_of_fewer hj hp⟩

/-- A change of none of the tables concerned. -/
theorem State.Tracks.of_eq {s t : State} (hs : t.sources = s.sources) (hc : t.cursors = s.cursors) (hp : t.ports = s.ports) :
    s.Tracks t :=
  .of_fewer (fun i => by simp [State.source, hs, Source.SameButHead]) (fun c => by simp [State.cursor, hc])
    (fun n => by simp [State.port, hp])

theorem State.setFrame_tracks (s : State) (f : FrameId) (x : Frame) : s.Tracks (s.setFrame f x) := .of_eq rfl rfl rfl
theorem State.modifyFrame_tracks (s : State) (f : FrameId) (g : Frame → Frame) : s.Tracks (s.modifyFrame f g) :=
  .of_eq rfl rfl rfl
theorem State.setView_tracks (s : State) (v : ViewId) (x : Option View) : s.Tracks (s.setView v x) := .of_eq rfl rfl rfl
theorem State.setGroup_tracks (s : State) (g : GroupId) (x : Group) : s.Tracks (s.setGroup g x) := .of_eq rfl rfl rfl
theorem State.setPoolRow_tracks (s : State) (p : PoolRow) (x : Option PoolHold) : s.Tracks (s.setPoolRow p x) :=
  .of_eq rfl rfl rfl
theorem State.setHolder_tracks (s : State) (h : ReadHolder) (x : Option ReadRequest) : s.Tracks (s.setHolder h x) := by
  cases h <;> exact .of_eq rfl rfl rfl

/-- A cursor takes a record with no command that it had not. -/
theorem State.setCursor_tracks (s : State) (c : CursorId) (x : Cursor) (h : (s.cursor c).job = none → x.job = none) :
    s.Tracks (s.setCursor c x) := by
  refine .of_fewer (fun _ => rfl) (fun d hd => ?_) fun _ => id
  rw [State.cursor_setCursor]
  split
  · next e => exact h (e ▸ hd)
  · exact hd

theorem State.raise_tracks (s : State) (o : Origin) (d : NoticeDetail) : s.Tracks (s.raise o d) := by
  rw [State.raise_eq]
  exact .of_eq rfl rfl rfl

theorem State.fileError_tracks (s : State) (e : ErrorReport) (m : Bool) : s.Tracks (s.fileError e m) := by
  refine State.Tracks.trans ?_ (State.raise_tracks _ _ _)
  unfold State.enqueueError
  split <;> exact .of_eq rfl rfl rfl

theorem State.logError_tracks (s : State) (e : ErrorReport) : s.Tracks (s.logError e) := s.fileError_tracks e false

/-- Every source takes a record that differs at most in its head. -/
theorem State.mapSources_tracks (s : State) (g : Source → Source) (h : ∀ x : Source, x.SameButHead (g x)) :
    s.Tracks { s with sources := s.sources.map g } :=
  .of_fewer (fun i => by simpa only [State.source, Vector.getElem_map] using h (s.source i)) (fun _ => id) (fun _ => id)

theorem State.readyWaiting_tracks (s : State) : s.Tracks s.readyWaiting :=
  s.mapSources_tracks _ fun x => by unfold Source.SameButHead; split <;> rfl
theorem State.readyStalled_tracks (s : State) (f : FrameId) (r : Nat) : s.Tracks (s.readyStalled f r) :=
  s.mapSources_tracks _ fun x => by unfold Source.SameButHead; split <;> rfl

/-! ### The controller -/

theorem State.retireOp_tracks (s : State) (n : Nat) : s.Tracks (s.retireOp n) :=
  State.Tracks.trans (t := { s with writeQueue := s.writeQueue.filter (fun o => o.issued != some n) }) (.of_eq rfl rfl rfl)
    (State.readyWaiting_tracks _)

theorem State.placeRead_tracks (s : State) (h : ReadHolder) (f : FrameId) (r : Nat) (d : DrumClass) (p : Option PoolRow) :
    s.Tracks (s.placeRead h f r d p) := s.setHolder_tracks h _
theorem State.abandonRead_tracks (s : State) (h : ReadHolder) : s.Tracks (s.abandonRead h) := s.setHolder_tracks h _

theorem State.staleOps_tracks (s : State) (f : FrameId) : s.Tracks (s.staleOps f) := .of_eq rfl rfl rfl

theorem State.clearOps_tracks (s : State) (f : FrameId) : s.Tracks ((s.staleOps f).removeUnissued f) := by
  obtain ⟨honly, hsources⟩ := s.clearOps_spec f
  exact .of_fewer hsources (fun c => by simp only [State.cursor, congrArg State.cursors honly]; exact id)
    (fun n => by simp only [State.port, congrArg State.ports honly]; exact id)

theorem State.MarksReads.tracks {s t : State} (h : s.MarksReads t) : s.Tracks t := by
  refine .of_fewer (fun i => ?_) (fun c hc => ?_) fun n hn => ?_
  · simp only [State.source, congrArg State.sources h.only]
    rfl
  · have := h.jobs c
    rw [hc] at this
    exact Option.isNone_iff_eq_none.mp (Option.isSome_eq_false_iff.mp this)
  · simpa only [State.port, congrArg State.ports h.only] using hn

theorem State.faultReads_marksReads (s : State) (f : FrameId) : s.MarksReads (s.faultReads f) := by
  have fold : ∀ (l : List ReadHolder) (u : State), u.MarksReads (l.foldl (fun s h => s.markRead f .faulted h) u) := by
    intro l
    induction l with
    | nil => exact fun u => .refl u
    | cons h l ih => exact fun u => (u.markRead_marksReads f .faulted h).trans (ih _)
  exact fold allHolders s

/-! ### Cursors and views -/

theorem State.unpinCursor_tracks (s : State) (c : CursorId) : s.Tracks (s.unpinCursor c) := .of_eq rfl rfl rfl
theorem State.modifyCursor_tracks (s : State) (c : CursorId) (g : Cursor → Cursor)
    (h : (s.cursor c).job = none → (g (s.cursor c)).job = none) : s.Tracks (s.modifyCursor c g) := s.setCursor_tracks c _ h

theorem State.cutJob_tracks (s : State) (c : CursorId) (st : Status) : s.Tracks (s.cutJob c st) := by
  unfold State.cutJob
  split
  · exact .refl s
  · next j hj =>
    have hcursor : ∀ d, d ≠ c → (s.setCursor c { s.cursor c with job := none }).cursor d = s.cursor d := fun d hd => by
      rw [State.cursor_setCursor, if_neg hd]
    refine ⟨fun _ => rfl, (s.setCursor_tracks c { s.cursor c with job := none } fun _ => rfl).idle,
      State.jobsOk_of_ended (c := c) (by simp [hj]) ?_ hcursor fun n hn => ?_⟩
    · exact congrArg Cursor.job (State.cursor_setCursor_self s c { s.cursor c with job := none })
    · unfold State.answer
      rw [State.port_setPort, if_neg hn]
      rfl

theorem State.loseCursor_tracks (s : State) (c : CursorId) (k : LostCause) : s.Tracks (s.loseCursor c k) := by
  unfold State.loseCursor
  split
  · exact .refl s
  · have hcut : s.Tracks (((s.unpinCursor c).cutJob c .lost).abandonRead (.cursor c)) :=
      ((s.unpinCursor_tracks c).trans (State.cutJob_tracks _ c .lost)).trans (State.abandonRead_tracks _ _)
    exact (hcut.trans (State.modifyCursor_tracks _ c _ id)).trans (State.raise_tracks _ _ _)

theorem State.loseCursors_tracks (s : State) (p : Cursor → Bool) (k : LostCause) : s.Tracks (s.loseCursors p k) :=
  .foldl (fun s c => .ite (s.loseCursor_tracks c k) (.refl s)) _ s

theorem State.releaseView_tracks (s : State) (f : FrameId) (k : LostCause) : s.Tracks (s.releaseView f k) := by
  cases hv : (s.frame f).view with
  | none => rw [State.releaseView_of_none hv]; exact .refl s
  | some v =>
    rw [State.releaseView_of_some hv]
    have hemptied : s.Tracks (s.viewEmptied f v) := by
      have honly := s.viewEmptied_only f v
      exact .of_eq (by rw [honly]) (by rw [honly]) (by rw [honly])
    exact (hemptied.trans (State.loseCursors_tracks _ _ k)).trans
      (State.Tracks.trans (State.setView_tracks _ v none) (State.modifyFrame_tracks _ f _))

theorem State.modifyView_tracks (s : State) (v : ViewId) (g : View → View) : s.Tracks (s.modifyView v g) := .of_eq rfl rfl rfl

theorem State.detachPrevious_tracks (s : State) (f : FrameId) : s.Tracks (s.detachPrevious f) := by
  unfold State.detachPrevious
  split
  · exact .refl s
  · exact .ite (((s.modifyView_tracks _ _).trans (State.releaseView_tracks _ _ _)).trans (State.modifyFrame_tracks _ _ _))
      (s.modifyView_tracks _ _)

theorem State.returnPoolRow_tracks (s : State) (p : PoolRow) (f : FrameId) (r : Nat) : s.Tracks (s.returnPoolRow p f r) := by
  unfold State.returnPoolRow
  split
  · exact .refl s
  · exact .ite ((s.setPoolRow_tracks p none).trans (State.modifyView_tracks _ _ _)) (.refl s)

theorem State.openView_tracks (s : State) (f : FrameId) : s.Tracks (s.openView f) := by
  unfold State.openView
  split
  · exact .refl s
  · exact (s.setView_tracks _ _).trans (State.modifyFrame_tracks _ _ _)

theorem State.detachCursor_tracks (s : State) (c : CursorId) : s.Tracks (s.detachCursor c) := by
  unfold State.detachCursor
  split
  · exact s.modifyCursor_tracks c _ id
  · have hclosed : s.Tracks ((s.unpinCursor c).modifyCursor c (fun x => { x with slot := .closed })) :=
      (s.unpinCursor_tracks c).trans (State.modifyCursor_tracks _ c _ id)
    split
    · exact hclosed.trans (State.detachPrevious_tracks _ _)
    · exact hclosed
    · exact hclosed

theorem State.pinCursor_tracks (s : State) (c : CursorId) (a : Attachment) : s.Tracks (s.pinCursor c a) :=
  .foldl (fun s f => s.modifyFrame_tracks f _) _ s

theorem State.attachCursor_tracks (s : State) (c : CursorId) (k : CursorFields) : s.Tracks (s.attachCursor c k) := by
  have hattached : s.Tracks (match k.attachment with
      | .previous f => s.attachPrevious f
      | .current _ => s
      | .group _ => s) := by
    split
    · unfold State.attachPrevious
      split
      · exact .refl s
      · exact s.modifyView_tracks _ _
    · exact .refl s
    · exact .refl s
  unfold State.attachCursor
  refine (hattached.trans ?_).trans (State.setCursor_tracks _ c _ fun _ => rfl)
  exact .ite (State.pinCursor_tracks _ c _) (.refl _)

/-! ### Frames and sections -/

theorem State.Remosaics.tracks {s t : State} (h : s.Remosaics t) : s.Tracks t :=
  .of_eq (by rw [h.only]) (by rw [h.only]) (by rw [h.only])

theorem State.tellSettled_remosaics (s : State) (f : FrameId) : s.Remosaics (s.tellSettled f) := by
  unfold State.tellSettled
  split
  · exact State.testJoining_remosaics _ _ _
  · exact .refl s

theorem State.setRow_tracks (s : State) (f : FrameId) (r : Nat) (e : RowEntry) : s.Tracks (s.setRow f r e) := by
  unfold State.setRow
  split
  · exact .refl s
  · exact s.modifyFrame_tracks f _

theorem State.dissolveGroup_tracks (s : State) (g : GroupId) : s.Tracks (s.dissolveGroup g) := by
  unfold State.dissolveGroup
  have hidle : s.Tracks (if s.engine.any (fun x => x.group == g) then s.abandonSearch else s) :=
    .ite s.abandonSearch_remosaics.tracks (.refl s)
  refine State.Tracks.trans ?_ (State.refillQueue_remosaics _).tracks
  refine State.Tracks.trans ?_ (State.setGroup_tracks _ _ _)
  refine State.Tracks.trans ?_ (State.loseCursors_tracks _ _ _)
  refine State.Tracks.trans ?_ (State.Tracks.foldl (fun s f => (s.clearMembership_remosaics g f).tracks) _ _)
  exact hidle.trans (State.setSeamQueue_remosaics _ _).tracks

theorem State.freeFrame_tracks (s : State) (f : FrameId) : s.Tracks (s.freeFrame f) := by
  rw [State.freeFrame_eq]
  have hdeserted : s.Tracks (s.deserted f) :=
    ((s.clearOps_tracks f).trans (State.releaseView_tracks _ f _)).trans (State.loseCursors_tracks _ _ _)
  have hunpinned : ∀ u : State, u.Tracks (u.unpinned f) := fun _ => .of_eq rfl rfl rfl
  have hvacated : ∀ u : State, u.Tracks (u.vacated f) := fun _ => .of_eq rfl rfl rfl
  exact (((hdeserted.trans (hunpinned _)).trans (State.tellGone_remosaics _ f .free).tracks).trans
    (State.vanishReads_marksReads _ f).tracks).trans (hvacated _)

theorem State.detachSource_tracks (s : State) (f : FrameId) (i : SourceId) : s.Tracks (s.detachSource f i) :=
  .ite (.ite (s.modifyFrame_tracks f _) (s.modifyFrame_tracks f _)) (.refl s)

theorem State.settle_tracks (s : State) (f : FrameId) : s.Tracks (s.settle f) := by
  unfold State.settle
  refine State.Tracks.trans (.iteThen ?_ (State.raise_tracks _ _ _)) (State.modifyFrame_tracks _ _ _)
  refine State.Tracks.trans ?_ (State.tellSettled_remosaics _ _).tracks
  exact .iteThen (s.modifyFrame_tracks f _) (State.releaseView_tracks _ _ _)

theorem State.settleOvertaken_tracks (s : State) (f : FrameId) : s.Tracks (s.settleOvertaken f) :=
  .ite (.ite (((s.modifyFrame_tracks f _).trans (State.raise_tracks _ _ _)).trans (State.modifyFrame_tracks _ _ _))
    (s.modifyFrame_tracks f _)) (.refl s)

theorem State.newPass_tracks (s : State) (f : FrameId) (i : SourceId) (e : EntryId) (d : EntryFields) :
    s.Tracks (s.newPass f i e d) := by
  exact (((((s.settleOvertaken_tracks f).trans (State.staleOps_tracks _ _)).trans (State.releaseView_tracks _ _ _)).trans (State.openView_tracks _ _)).trans
    (State.modifyFrame_tracks _ _ _)).trans (State.tellNewPass_remosaics _ _).tracks

theorem State.refitCursors_tracks (s : State) (f : FrameId) (rows : Nat) : s.Tracks (s.refitCursors f rows) := by
  refine State.Tracks.foldl (fun s c => ?_) _ s
  split
  · exact .ite (s.setCursor_tracks c _ id) (.refl s)
  · exact .refl s

theorem State.takeExpected_tracks (s : State) (f : FrameId) (i : SourceId) (e : EntryId) (d : EntryFields) :
    s.Tracks (s.takeExpected f i e d) := (s.modifyFrame_tracks f _).trans (State.refitCursors_tracks _ _ _)

theorem State.handOver_tracks (s : State) (o : Option FrameId) (f : FrameId) : s.Tracks (s.handOver o f) := by
  unfold State.handOver
  split
  · exact .refl s
  · exact .ite (.refl s) (s.modifyFrame_tracks _ _)

theorem State.minuteCheck_tracks (s : State) : s.Tracks s.minuteCheck :=
  .ite (State.Tracks.foldl (fun s f => .ite ((s.freeFrame_tracks f).trans (State.raise_tracks _ _ _)) (.refl s)) _ s) (.refl s)

/-! ### Searches and read commands -/

theorem State.recordSeam_remosaics (s : State) (x : Search) : s.Remosaics (s.recordSeam x) := by
  have hidle : (s.modifySeam x.group x.seam (fun m => m.withResult x s.storeConfig.seamAcceptLimit)).Remosaics
      { s.modifySeam x.group x.seam (fun m => m.withResult x s.storeConfig.seamAcceptLimit) with engine := none } :=
    ⟨rfl, fun _ => ⟨_, _, rfl⟩, .inr rfl, rfl, .of_eq rfl⟩
  exact (((State.Remosaics.trans (s.modifyGroup_remosaics x.group _) hidle).trans (State.recomputeHeight_remosaics _ _)).trans
    (State.testJoining_remosaics s _ _)).trans (State.testJoined_remosaics s _ _)

theorem State.keepRow_tracks (s : State) (x : Search) (p : Option (List Byte)) : s.Tracks (s.keepRow x p) := .of_eq rfl rfl rfl

theorem State.runSearch_tracks (fuel : Nat) (s : State) : s.Tracks (s.runSearch fuel) := by
  induction fuel generalizing s with
  | zero => exact .refl s
  | succ fuel ih =>
    unfold State.runSearch
    split
    · exact .refl s
    · split
      · exact (s.recordSeam_remosaics _).tracks
      · exact .ite (s.placeRead_tracks _ _ _ _ _) ((s.keepRow_tracks _ _).trans (ih _))

theorem State.carrySearch_tracks (s : State) : s.Tracks s.carrySearch := by
  unfold State.carrySearch
  split
  · exact .refl s
  · exact .ite (.refl s) (s.runSearch_tracks _)

theorem State.parkJob_tracks {s : State} {c : CursorId} (h : (s.cursor c).job ≠ none) (j : ReadJob) (p : JobPhase) :
    s.Tracks (s.parkJob c j p) := s.setCursor_tracks c _ fun hn => absurd hn h

theorem State.finishJob_tracks {s : State} {c : CursorId} (h : (s.cursor c).job ≠ none) (x : CursorFields) (j : ReadJob)
    (st : Status) : s.Tracks (s.finishJob c x j st) := by
  have hset := s.setCursor_tracks c { slot := .opened { x with position := j.kind.positionAfter x j.items.length }, job := none }
    fun _ => rfl
  refine ⟨hset.sources, hset.idle, State.jobsOk_of_ended h ?_ (fun d hd => ?_) fun n hn => ?_⟩
  · exact congrArg Cursor.job (State.cursor_setCursor_self s c _)
  · unfold State.finishJob State.answer
    rw [State.cursor_setPort, State.cursor_setCursor, if_neg hd]
  · unfold State.finishJob State.answer
    rw [State.port_setPort, if_neg hn, State.port_setCursor]

theorem State.runJob_tracks (fuel : Nat) (s : State) (c : CursorId) : s.Tracks (s.runJob fuel c) := by
  induction fuel generalizing s with
  | zero => exact .refl s
  | succ fuel ih =>
    unfold State.runJob
    split
    · next x j hx hj =>
      have hjob : (s.cursor c).job ≠ none := by rw [hj]; exact Option.some_ne_none j
      split
      · exact State.finishJob_tracks hjob _ _ _
      · refine .ite (State.finishJob_tracks hjob _ _ _) ?_
        split
        · exact (State.parkJob_tracks hjob _ _).trans (ih _)
        · refine .ite (State.parkJob_tracks hjob _ _) ((s.placeRead_tracks _ _ _ _ _).trans (State.parkJob_tracks ?_ _ _))
          rw [State.placeRead, State.cursor_setHolder]
          exact hjob
    · exact .refl s
    · exact .refl s

theorem State.resumeJobs_tracks (s : State) : s.Tracks s.resumeJobs := by
  refine State.Tracks.foldl (fun s c => ?_) _ s
  unfold State.resumeJob
  split
  · exact .ite (s.runJob_tracks _ c) (.refl s)
  · exact .refl s

theorem State.keepItem_tracks {s : State} {c : CursorId} (h : (s.cursor c).job ≠ none) (j : ReadJob) (i : Option RowItem) :
    s.Tracks (s.keepItem c j i) := State.parkJob_tracks h _ _

theorem State.answerRead_tracks (s : State) (h : ReadHolder) (r : ReadRequest) (g : Option (List Byte)) :
    s.Tracks (s.answerRead h r g) := by
  unfold State.answerRead
  refine .ite (.refl s) ?_
  split
  · next c =>
    unfold State.answerCursor
    split
    · next j hx hj =>
      have hjob : (s.cursor c).job ≠ none := by rw [hj]; exact Option.some_ne_none _
      split
      · exact .refl s
      · refine .ite (State.keepItem_tracks hjob _ _) ?_
        split <;> exact State.keepItem_tracks hjob _ _
    · exact .refl s
    · exact .refl s
  · unfold State.answerSeam
    split
    · exact .refl s
    · exact .ite (s.keepRow_tracks _ _) (s.keepRow_tracks _ _)

end Sys2Proof.Machine
end

section
/-! SUPPORT. What the events of a link, of the placement engine and of a fault make of one source (chapter 2): its ring within
R29, its rejections within R40. -/

namespace Sys2Proof.Machine

/-- From `x` to `y` a source keeps its ring right (R29), and its count of rejections within 8 (R40). -/
structure Source.Goes (x y : Source) : Prop where
  ring       : x.ringOk → y.ringOk
  rejections : x.rejections ≤ 8 → y.rejections ≤ 8

theorem Source.Goes.refl (x : Source) : x.Goes x := ⟨id, id⟩
theorem Source.Goes.trans {x y z : Source} (h : x.Goes y) (k : y.Goes z) : x.Goes z :=
  ⟨fun r => k.ring (h.ring r), fun r => k.rejections (h.rejections r)⟩

/-- A source whose ring and binding stay goes on where it enters neither a stream nor DISCARDING. -/
theorem Source.Goes.of_same {x y : Source} (hr : y.ring = x.ring) (hb : y.binding = x.binding)
    (hs : y.state.inStream = true → x.state.inStream = true) (hd : y.state = .discarding → x.state = .discarding)
    (hj : x.rejections ≤ 8 → y.rejections ≤ 8) : x.Goes y := by
  refine ⟨fun ⟨hlen, hmarker, hstream, hunbound, hdiscard⟩ => ?_, hj⟩
  unfold Source.ringOk
  rw [hr, hb]
  exact ⟨hlen, hmarker, fun h => hstream (hs h), hunbound, fun h => hdiscard (hd h)⟩

/-- A source whose ring, binding, state and rejections stay goes on. -/
theorem Source.Goes.of_eq {x y : Source} (hr : y.ring = x.ring) (hb : y.binding = x.binding) (hs : y.state = x.state)
    (hj : y.rejections = x.rejections) : x.Goes y :=
  .of_same hr hb (hs ▸ id) (hs ▸ id) (hj ▸ id)

theorem Source.SameButHead.goes {x y : Source} (h : x.SameButHead y) : x.Goes y := by
  rw [h]
  exact .of_eq rfl rfl rfl rfl

/-- A source with an empty ring that is in no stream, and that DISCARDING leaves unbound, is right. -/
theorem Source.ringOk_of_empty {x : Source} (hr : x.ring = []) (hs : x.state.inStream = false)
    (hd : x.state = .discarding → x.binding = none) : x.ringOk := by
  exact ⟨by simp [hr], by simp [hr], fun h => absurd (hs.symm.trans h) (by decide), fun _ => hr, hd⟩

theorem Source.ringOk.eq_nil_of_unbound {x : Source} (h : x.ringOk) (hb : x.binding = none) : x.ring = [] := h.2.2.2.1 hb
theorem Source.ringOk.unbound_of_discarding {x : Source} (h : x.ringOk) (hs : x.state = .discarding) : x.binding = none :=
  h.2.2.2.2 hs

/-! ### Records pushed and removed -/

theorem Source.goodRecord_goes (x : Source) : x.Goes x.goodRecord := .of_eq rfl rfl rfl rfl

theorem Source.recover_goes (x : Source) : x.Goes x.recover := by
  unfold Source.recover
  split
  · exact .of_eq rfl rfl rfl rfl
  · exact .of_same rfl rfl (fun h => by cases h) (fun h => by cases h) id

/-- A line pushed where the ring holds at most 14 records of a stream in progress (R34). -/
theorem Source.pushLine_goes {x : Source} (r : LineRecord) (hs : x.state.inStream = true) (hlen : x.ring.length ≤ 14) :
    x.Goes (x.push (.line r)) := by
  refine ⟨fun ⟨_, _, hstream, _, _⟩ => ?_, id⟩
  obtain ⟨hbound, _, hlines⟩ := hstream hs
  have hall : ∀ q ∈ x.ring ++ [RingRecord.line r], q.isMarker = false := fun q hq => by
    rcases List.mem_append.mp hq with hq | hq
    · exact hlines q hq
    · rw [List.mem_singleton.mp hq]; rfl
  have hlength : (x.push (.line r)).ring.length ≤ 15 := by
    simp only [Source.push, List.length_append, List.length_singleton]
    omega
  refine ⟨hlength.trans (by decide), fun q hq => hall q (List.dropLast_subset _ hq), fun _ => ⟨hbound, hlength, hall⟩,
    fun hn => ?_, fun hd => ?_⟩
  · rw [Source.push] at hn
    rw [hn] at hbound
    exact absurd hbound (by decide)
  · rw [Source.push] at hd
    rw [hd] at hs
    exact absurd hs (by decide)

/-- A stream in progress ends with a marker as the newest record (R29). -/
theorem Source.endStream_goes {x : Source} (e : StopEnd) (hs : x.state.inStream = true) : x.Goes (x.endStream e) := by
  refine ⟨fun ⟨_, _, hstream, _, _⟩ => ?_, id⟩
  obtain ⟨hbound, hlen, hlines⟩ := hstream hs
  refine ⟨?_, fun q hq => hlines q ?_, fun h => (by cases h), fun hn => ?_, fun h => by cases h⟩
  · simp only [Source.endStream, Source.push, Source.stopTimers, List.length_append, List.length_singleton]
    omega
  · simpa only [Source.endStream, Source.push, Source.stopTimers, List.dropLast_concat] using hq
  · simp only [Source.endStream, Source.push, Source.stopTimers] at hn
    rw [hn] at hbound
    exact absurd hbound (by decide)

theorem Source.removeHead_goes (x : Source) : x.Goes x.removeHead := by
  refine ⟨fun ⟨hlen, hmarker, hstream, hunbound, hdiscard⟩ => ?_, id⟩
  have hlength : x.removeHead.ring.length ≤ x.ring.length := by
    simp only [Source.removeHead, List.length_tail]
    omega
  refine ⟨hlength.trans hlen, fun q hq => hmarker q ?_, fun hs => ?_, fun hn => ?_, hdiscard⟩
  · simp only [Source.removeHead, ← List.tail_dropLast] at hq
    exact List.mem_of_mem_tail hq
  · obtain ⟨hbound, hle, hlines⟩ := hstream hs
    exact ⟨hbound, hlength.trans hle, fun q hq => hlines q (List.mem_of_mem_tail hq)⟩
  · simp only [Source.removeHead, hunbound hn, List.tail_nil]

theorem Source.endIfRejected_goes (x : Source) : x.Goes x.endIfRejected := by
  unfold Source.endIfRejected
  split
  · next h => exact Source.endStream_goes .overrun h.2
  · exact .refl x

theorem Source.countRejected_goes (x : Source) : x.Goes x.countRejected :=
  .of_same rfl rfl id id fun _ => by
    simp only [Source.countRejected, stickyNext]
    split <;> omega

/-! ### Lines and phasing -/

theorem Source.countReceived_goes (x : Source) : x.Goes x.countReceived := .of_eq rfl rfl rfl rfl
theorem Source.trackSequence_goes (x : Source) (rate : LineRate) (q : Nat) : x.Goes (x.trackSequence rate q) :=
  .of_eq rfl rfl rfl rfl

theorem Source.refreshFade_goes (x : Source) : x.Goes x.refreshFade := by
  unfold Source.refreshFade
  split
  · exact .of_eq rfl rfl rfl rfl
  · exact .refl x

@[simp] theorem Source.refreshFade_state (x : Source) : x.refreshFade.state = x.state := by
  unfold Source.refreshFade
  split <;> rfl
@[simp] theorem Source.refreshFade_binding (x : Source) : x.refreshFade.binding = x.binding := by
  unfold Source.refreshFade
  split <;> rfl
@[simp] theorem Source.refreshFade_held (x : Source) : x.refreshFade.held = x.held := by
  unfold Source.refreshFade
  split <;> rfl

theorem Source.endPhasingEarly_state (x : Source) : x.endPhasingEarly.state = .receiving := by
  unfold Source.endPhasingEarly
  split <;> rfl

theorem Source.endPhasingEarly_goes {x : Source} (hs : x.state = .phasing) : x.Goes x.endPhasingEarly := by
  have hstream : x.state.inStream = true := by rw [hs]; rfl
  unfold Source.endPhasingEarly
  split
  · exact .of_same rfl rfl (fun _ => hstream) (fun h => by cases h) id
  · exact .of_same rfl rfl (fun _ => hstream) (fun h => by cases h) id

theorem Source.takePhase_goes (x : Source) (pulse : Nat) : x.Goes (x.takePhase pulse) := by
  unfold Source.takePhase
  split
  · next hs hb =>
    split
    · exact .refl x
    · dsimp only
      split
      · exact .of_same rfl rfl (fun _ => by rw [hs]; rfl) (fun h => by cases h) id
      · exact .of_eq rfl rfl rfl rfl
  · exact .of_eq rfl rfl rfl rfl
  · exact .refl x

theorem Source.takeStop_goes (x : Source) : x.Goes x.takeStop := by
  unfold Source.takeStop
  split
  · next h => exact Source.endStream_goes .normal (by rw [h]; rfl)
  · next h => exact Source.endStream_goes .normal (by rw [h]; rfl)
  · next h => exact Source.endStream_goes .normal (by rw [h]; rfl)
  · exact .of_same rfl rfl (fun h => by cases h) (fun h => by cases h) id
  · exact .refl x
  · exact .refl x
  · exact .refl x

theorem Source.takeResume_goes (x : Source) : x.Goes x.takeResume := by
  unfold Source.takeResume
  split
  · next h => exact .of_same rfl rfl (fun _ => by rw [h]; rfl) (fun h => by cases h) id
  · exact .refl x

/-! ### Ends of a binding -/

/-- The markers that a right ring keeps are its newest record or none. -/
theorem filter_isMarker_eq {l : List RingRecord} (h : ∀ r ∈ l.dropLast, r.isMarker = false) :
    l.filter RingRecord.isMarker = l.getLast?.toList.filter RingRecord.isMarker := by
  rcases List.eq_nil_or_concat l with rfl | ⟨k, r, rfl⟩
  · rfl
  · rw [List.concat_eq_append, List.dropLast_concat] at h
    have hk : k.filter RingRecord.isMarker = [] := List.filter_eq_nil_iff.mpr fun q hq => by simp [h q hq]
    simp [hk]

theorem Source.lose_goes (x : Source) : x.Goes x.lose := by
  refine ⟨fun ⟨_, hmarker, _, hunbound, _⟩ => ?_, id⟩
  have hkept : (x.ring.filter RingRecord.isMarker).length ≤ 1 := by
    rw [filter_isMarker_eq hmarker]
    refine (List.length_filter_le _ _).trans ?_
    cases x.ring.getLast? <;> simp
  have hlen : x.ringAtLoss.length ≤ 1 := by
    unfold Source.ringAtLoss
    dsimp only
    split
    · exact le_rfl
    · exact hkept
  have hlast : x.lose.ring.dropLast = [] := List.length_eq_zero_iff.mp (by
    rw [List.length_dropLast]
    exact Nat.sub_eq_zero_of_le hlen)
  refine ⟨hlen.trans (by decide), fun q hq => ?_, fun h => (by cases h), fun hn => ?_, fun h => by cases h⟩
  · rw [hlast] at hq
    cases hq
  · have hb : x.binding = none := hn
    show x.ringAtLoss = []
    simp [Source.ringAtLoss, hb, hunbound hb]

theorem Source.faulted_goes (x : Source) : x.Goes x.faulted := by
  refine ⟨fun _ => Source.ringOk_of_empty rfl ?_ fun _ => rfl, id⟩
  show x.state.afterFault.inStream = false
  cases x.state <;> rfl

theorem Source.cleared_goes (x : Source) : x.Goes x.cleared := by
  refine ⟨fun _ => Source.ringOk_of_empty rfl ?_ fun _ => rfl, fun _ => Nat.zero_le _⟩
  unfold Source.cleared
  dsimp only
  split <;> rfl

/-- What PE leaves of a source whose marker it takes (R41). -/
def Source.markerTaken (x : Source) : Source :=
  { x.removeHead.unbind with state := x.state.afterMarker }

theorem Source.markerTaken_goes {x : Source} {e : StopEnd} {l : List RingRecord} (hr : x.ring = .marker e :: l) :
    x.Goes x.markerTaken := by
  refine ⟨fun ⟨_, hmarker, hstream, hunbound, hdiscard⟩ => ?_, id⟩
  have hl : l = [] := by
    rcases l with - | ⟨r, l⟩
    · rfl
    · have := hmarker (.marker e) (by rw [hr]; exact List.mem_cons_self)
      cases this
  have hnostream : x.state.inStream = false := by
    rw [← Bool.not_eq_true]
    intro hs
    have := (hstream hs).2.2 (.marker e) (by rw [hr]; exact List.mem_cons_self)
    cases this
  have hstate : x.state.afterMarker.inStream = false := by
    cases hx : x.state <;> simp_all [SourceState.afterMarker, SourceState.inStream]
  exact Source.ringOk_of_empty (by show x.ring.tail = []; rw [hr, hl]; rfl) hstate fun _ => rfl

/-! ### The start of a binding -/

theorem Source.ringOk_bound {x : Source} (hok : x.ringOk) (hb : x.binding = none) (b : StreamBinding) : (x.bound b).ringOk := by
  have hr : (x.bound b).ring = [] := hok.eq_nil_of_unbound hb
  exact ⟨by simp [hr], by simp [hr], fun _ => ⟨rfl, by simp [hr], by simp [hr]⟩, fun _ => hr, fun hd => by cases hd⟩

theorem Source.ringOk_discarding {x : Source} (hok : x.ringOk) (hb : x.binding = none) :
    ({ x with state := .discarding } : Source).ringOk :=
  Source.ringOk_of_empty (hok.eq_nil_of_unbound hb) rfl fun _ => hb

end Sys2Proof.Machine
end

section
/-! SUPPORT. The bindings of a START, the STARTs held, and the end of an event (R17, R26; log 12): which source they change. -/

namespace Sys2Proof.Machine

/-! ### One source starts -/

/-- From `s` to `t` source `i` alone has changed, but for heads: what START it holds stays, and its ring and rejections stay
right where it was unbound; no command has begun. -/
structure State.Binds (i : SourceId) (s t : State) : Prop where
  others     : ∀ j, j ≠ i → (s.source j).SameButHead (t.source j)
  held       : (t.source i).held = (s.source i).held
  ring       : (s.source i).binding = none → (s.source i).ringOk → (t.source i).ringOk
  rejections : (s.source i).rejections ≤ 8 → (t.source i).rejections ≤ 8
  idle       : ∀ c, (s.cursor c).job = none → (t.cursor c).job = none
  jobs       : s.jobsOk → t.jobsOk

theorem State.Tracks.binds {s t : State} (h : s.Tracks t) (i : SourceId) : s.Binds i t :=
  ⟨fun j _ => h.sources j, by rw [h.sources i], fun _ => (h.sources i).goes.ring, (h.sources i).goes.rejections, h.idle, h.jobs⟩

theorem State.Binds.after {i : SourceId} {s t u : State} (k : t.Binds i u) (h : s.Tracks t) : s.Binds i u where
  others j hj := (h.sources j).trans (k.others j hj)
  held := k.held.trans (by rw [h.sources i])
  ring hb hok := k.ring ((by rw [h.sources i] : (t.source i).binding = (s.source i).binding).trans hb)
    ((h.sources i).goes.ring hok)
  rejections hx := k.rejections ((h.sources i).goes.rejections hx)
  idle c hc := k.idle c (h.idle c hc)
  jobs x := k.jobs (h.jobs x)

theorem State.Binds.then {i : SourceId} {s t u : State} (h : s.Binds i t) (k : t.Tracks u) : s.Binds i u where
  others j hj := (h.others j hj).trans (k.sources j)
  held := (by rw [k.sources i] : (u.source i).held = (t.source i).held).trans h.held
  ring hb hok := (k.sources i).goes.ring (h.ring hb hok)
  rejections hx := (k.sources i).goes.rejections (h.rejections hx)
  idle c hc := k.idle c (h.idle c hc)
  jobs x := k.jobs (h.jobs x)

theorem State.setSource_binds (s : State) (i : SourceId) (x : Source) (hh : x.held = (s.source i).held)
    (hr : (s.source i).binding = none → (s.source i).ringOk → x.ringOk)
    (hj : (s.source i).rejections ≤ 8 → x.rejections ≤ 8) : s.Binds i (s.setSource i x) where
  others j hj := by rw [State.source_setSource, if_neg hj]; rfl
  held := by rw [State.source_setSource_self]; exact hh
  ring := by rw [State.source_setSource_self]; exact hr
  rejections := by rw [State.source_setSource_self]; exact hj
  idle _ := id
  jobs := id

theorem State.bindSource_binds (s : State) (i : SourceId) (f : FrameId) : s.Binds i (s.bindSource i f) := by
  unfold State.bindSource
  split
  · exact (State.Tracks.refl s).binds i
  · exact s.setSource_binds i _ rfl (fun hb hok => Source.ringOk_bound hok hb _) fun _ => Nat.zero_le _

theorem State.discardStream_binds (s : State) (i : SourceId) : s.Binds i (s.discardStream i) :=
  s.setSource_binds i _ rfl (fun hb hok => Source.ringOk_discarding hok hb) id

theorem State.handOn_binds (s : State) (i : SourceId) (f : FrameId) (k : BindingKind) (a b : Bool) :
    s.Binds i (s.handOn i f k a b) := by
  unfold State.handOn
  refine State.Binds.then (s.bindSource_binds i f) (State.Tracks.trans (.iteThen ?_ (State.raise_tracks _ _ _))
    (State.raise_tracks _ _ _))
  exact .ite (State.tellBound_remosaics _ _).tracks (.refl _)

theorem State.bindFresh_binds (s : State) (i : SourceId) (k : FrameIdentity) (o : Option FrameId) :
    s.Binds i (s.bindFresh i k o) := by
  unfold State.bindFresh
  dsimp only
  split
  · exact (State.handOn_binds _ i _ _ _ _).after ((s.handOver_tracks o _).trans (State.modifyFrame_tracks _ _ _))
  · split
    · exact (State.handOn_binds _ i _ _ _ _).after
        (((s.freeFrame_tracks _).trans (State.handOver_tracks _ _ _)).trans (State.modifyFrame_tracks _ _ _))
    · exact (s.discardStream_binds i).then (State.logError_tracks _ _)

theorem State.bindStart_binds (s : State) (i : SourceId) (x : StartRecord) : s.Binds i (s.bindStart i x) := by
  have hunscheduled : s.Binds i (s.bindUnscheduled i x) := by
    unfold State.bindUnscheduled
    split
    · exact s.bindFresh_binds i _ none
    · exact (s.discardStream_binds i).then (State.raise_tracks _ _ _)
  unfold State.bindStart
  split
  · split
    · unfold State.bindScheduled
      split
      · exact (State.handOn_binds _ i _ _ _ _).after (s.modifyFrame_tracks _ _)
      · exact (State.handOn_binds _ i _ _ _ _).after (s.modifyFrame_tracks _ _)
      · exact (State.handOn_binds _ i _ _ _ _).after (s.newPass_tracks _ i _ _)
      · exact (State.handOn_binds _ i _ _ _ _).after (s.takeExpected_tracks _ i _ _)
      · exact s.bindFresh_binds i _ _
    · exact hunscheduled
  · exact hunscheduled

/-! ### Held STARTs -/

/-- The source holds a START that it is to take at the end of the event (R26). -/
def Source.startWaits (x : Source) : Prop := x.held.isSome = true ∧ x.state = .idle ∧ x.binding = none

theorem Source.SameButHead.startWaits {x y : Source} (h : x.SameButHead y) (hy : y.startWaits) : x.startWaits := by
  rw [h] at hy
  exact hy

theorem State.takeHeldStart_of_not_waits {s : State} {i : SourceId} (h : ¬ (s.source i).startWaits) : s.takeHeldStart i = s := by
  unfold State.takeHeldStart
  dsimp only
  split
  · rfl
  · next x hx =>
    exact if_neg fun ⟨hs, hb⟩ => h ⟨by rw [hx]; rfl, hs, Option.isNone_iff_eq_none.mp hb⟩

theorem State.takeHeldStart_of_waits {s : State} {i : SourceId} {x : StartRecord} (hx : (s.source i).held = some x)
    (hs : (s.source i).state = .idle) (hb : (s.source i).binding = none) :
    s.takeHeldStart i = (s.setSource i { s.source i with held := none }).bindStart i x := by
  simp [State.takeHeldStart, hx, hs, hb]

/-- A held START that is taken changes its own source, whose command it is, and leaves it holding none. -/
structure State.TakesHeld (i : SourceId) (s t : State) : Prop where
  others : ∀ j, j ≠ i → (s.source j).SameButHead (t.source j)
  taken  : ¬ (t.source i).startWaits
  goes   : (s.source i).Goes (t.source i)
  idle   : ∀ c, (s.cursor c).job = none → (t.cursor c).job = none
  jobs   : s.jobsOk → t.jobsOk

theorem State.takeHeldStart_takesHeld (s : State) (i : SourceId) : s.TakesHeld i (s.takeHeldStart i) := by
  by_cases h : (s.source i).startWaits
  · obtain ⟨hheld, hs, hb⟩ := h
    obtain ⟨x, hx⟩ := Option.isSome_iff_exists.mp hheld
    rw [State.takeHeldStart_of_waits hx hs hb]
    have hset : (s.setSource i { s.source i with held := none }).source i = { s.source i with held := none } :=
      State.source_setSource_self s i _
    have hbinds := State.bindStart_binds (s.setSource i { s.source i with held := none }) i x
    refine ⟨fun j hj => ?_, fun hwaits => ?_, ?_, hbinds.idle, hbinds.jobs⟩
    · have := hbinds.others j hj
      rwa [State.source_setSource, if_neg hj] at this
    · have hheld := hwaits.1
      rw [hbinds.held, hset] at hheld
      cases hheld
    · have hring := hbinds.ring (by rw [hset]; exact hb)
      have hrejections := hbinds.rejections
      rw [hset] at hring hrejections
      have hput : (s.source i).Goes { s.source i with held := none } := .of_eq rfl rfl rfl rfl
      exact hput.trans ⟨hring, hrejections⟩
  · rw [State.takeHeldStart_of_not_waits h]
    exact ⟨fun _ _ => rfl, h, .refl _, fun _ => id, id⟩

/-! ### What every event keeps of sources and commands -/

/-- Port `m` has no command in progress on a cursor. -/
def State.Unserved (s : State) (m : Option ClientId) : Prop := ∀ n ∈ m, ∀ c, ownerOf c = n → (s.cursor c).job = none

/-- From `s` to `t` each source keeps its ring and its rejections right, and the commands in progress stay right, where port `m`,
if one is named, has none. -/
structure State.Keeps (m : Option ClientId) (s t : State) : Prop where
  sources : ∀ i, (s.source i).Goes (t.source i)
  idle    : ∀ c, (s.cursor c).job = none → (t.cursor c).job = none
  jobs    : s.Unserved m → s.jobsOk → t.jobsOk

section Keeps
variable {m : Option ClientId} {s t u : State}

theorem State.Tracks.keeps (h : s.Tracks t) : s.Keeps m t := ⟨fun i => (h.sources i).goes, h.idle, fun _ => h.jobs⟩

theorem State.Keeps.refl (s : State) : s.Keeps m s := (State.Tracks.refl s).keeps

theorem State.Keeps.trans (h : s.Keeps m t) (k : t.Keeps m u) : s.Keeps m u where
  sources i := (h.sources i).trans (k.sources i)
  idle c hc := k.idle c (h.idle c hc)
  jobs hm hs := k.jobs (fun n hn c hc => h.idle c (hm n hn c hc)) (h.jobs hm hs)

theorem State.Keeps.ite {p : Prop} [Decidable p] (h : s.Keeps m t) (k : s.Keeps m u) : s.Keeps m (if p then t else u) := by
  split
  · exact h
  · exact k

theorem State.Keeps.foldl {α : Type} {g : State → α → State} (hg : ∀ (s : State) (a : α), s.Keeps m (g s a)) :
    ∀ (l : List α) (s : State), s.Keeps m (l.foldl g s)
  | [], s => .refl s
  | a :: l, s => (hg s a).trans (State.Keeps.foldl hg l (g s a))

theorem State.TakesHeld.keeps {i : SourceId} (h : s.TakesHeld i t) : s.Keeps m t where
  sources j := by
    by_cases hj : j = i
    · exact hj ▸ h.goes
    · exact (h.others j hj).goes
  idle := h.idle
  jobs _ := h.jobs

theorem State.Binds.keeps {i : SourceId} (h : s.Binds i t) (hi : (s.source i).ringOk → (s.source i).binding = none) : s.Keeps m t where
  sources j := by
    by_cases hj : j = i
    · exact hj ▸ ⟨fun hok => h.ring (hi hok) hok, h.rejections⟩
    · exact (h.others j hj).goes
  idle := h.idle
  jobs _ := h.jobs

theorem State.setSource_keeps (s : State) (i : SourceId) (x : Source) (h : (s.source i).Goes x) : s.Keeps m (s.setSource i x) where
  sources j := by
    rw [State.source_setSource]
    split
    · next hj => exact hj ▸ h
    · exact .refl _
  idle _ := id
  jobs _ := id

theorem State.modifySource_keeps (s : State) (i : SourceId) (g : Source → Source) (h : (s.source i).Goes (g (s.source i))) :
    s.Keeps m (s.modifySource i g) := s.setSource_keeps i _ h

theorem State.closeEvent_keeps (s : State) : s.Keeps m s.closeEvent :=
  ((State.Keeps.foldl (fun s i => (s.takeHeldStart_takesHeld i).keeps) _ s).trans (State.carrySearch_tracks _).keeps).trans
    (State.resumeJobs_tracks _).keeps

end Keeps

/-! ### Faults and memory errors -/

section Keeps
variable {m : Option ClientId}

theorem State.sourceFaulted_keeps (s : State) (i : SourceId) : s.Keeps m (s.sourceFaulted i) := by
  unfold State.sourceFaulted
  split
  · exact .refl s
  · exact (s.modifySource_keeps i _ (Source.faulted_goes _)).trans (State.raise_tracks _ _ _).keeps

theorem State.faultFrame_keeps (s : State) (f : FrameId) : s.Keeps m (s.faultFrame f) := by
  unfold State.faultFrame
  refine .ite ?_ (.refl s)
  refine State.Keeps.trans ?_ (State.modifyFrame_tracks _ _ _).keeps
  refine State.Keeps.trans ?_ (State.faultReads_marksReads _ _).tracks.keeps
  refine State.Keeps.trans ?_ (State.tellGone_remosaics _ _ _).tracks.keeps
  refine State.Keeps.trans ?_ (State.loseCursors_tracks _ _ _).keeps
  refine State.Keeps.trans ?_ (State.releaseView_tracks _ _ _).keeps
  refine State.Keeps.trans ?_ (State.staleOps_tracks _ _).keeps
  exact (s.modifyFrame_tracks f _).keeps.trans
    (State.Keeps.foldl (fun s i => .ite (s.sourceFaulted_keeps i) (.refl s)) _ _)

theorem State.memoryError_keeps (s : State) (f : FrameId) (r : Nat) (e : ErrorReport) : s.Keeps m (s.memoryError f r e) := by
  have hfile : ∀ u : State, ∀ b, u.Keeps m (u.fileError e b) := fun u b => (u.fileError_tracks e b).keeps
  have hescalate : s.Keeps m (s.escalate f r e) :=
    (((hfile s false).trans (State.faultFrame_keeps _ f)).trans (State.logError_tracks _ _).keeps).trans
      (State.raise_tracks _ _ _).keeps
  exact .ite (.ite hescalate (.ite (hfile s false) ((s.modifyFrame_tracks f _).keeps.trans (hfile _ true)))) (hfile s false)

theorem State.reportCorrupt_keeps (s : State) (h : ReadHolder) (r : ReadRequest) (n : Bool) :
    s.Keeps m (s.reportCorrupt h r n) := by
  unfold State.reportCorrupt
  refine .ite (.refl s) ?_
  split
  · unfold State.readCorrupt
    split
    · exact .refl s
    · exact (s.setRow_tracks _ _ _).keeps.trans (State.memoryError_keeps _ _ _ _)
  · refine .ite (.refl s) ?_
    unfold State.poolCorrupt
    split
    · exact .refl s
    · exact ((s.setRow_tracks _ _ _).trans (State.returnPoolRow_tracks _ _ _ _)).keeps.trans (State.memoryError_keeps _ _ _ _)

theorem State.returnRead_keeps (s : State) (h : ReadHolder) (r : ReadRequest) (b : Option (List Byte)) :
    s.Keeps m (s.returnRead h r b) :=
  ((s.setHolder_tracks h none).keeps.trans (State.Keeps.ite (.refl _) (State.reportCorrupt_keeps _ _ _ _))).trans
    (State.answerRead_tracks _ _ _ _).keeps

theorem State.landRow_tracks (s : State) (f : FrameId) (r : Nat) (h : RowEntry → RowEntry) : s.Tracks (s.landRow f r h) := by
  unfold State.landRow
  split
  · exact .refl s
  · exact (s.setRow_tracks _ _ _).trans (State.readyStalled_tracks _ _ _)

theorem State.failWrite_keeps (s : State) (o : WriteOp) (k : ErrorKind) : s.Keeps m (s.failWrite o k) :=
  .ite (s.landRow_tracks _ _ _).keeps ((s.landRow_tracks _ _ _).keeps.trans (State.memoryError_keeps _ _ _ _))

theorem State.failCopy_keeps (s : State) (o : WriteOp) (p : PoolRow) (k : ErrorKind) : s.Keeps m (s.failCopy o p k) :=
  .ite (s.landRow_tracks _ _ _).keeps
    (((s.returnPoolRow_tracks _ _ _).trans (State.landRow_tracks _ _ _ _)).keeps.trans (State.memoryError_keeps _ _ _ _))

theorem State.corruptCopy_keeps (s : State) (o : WriteOp) (p : PoolRow) : s.Keeps m (s.corruptCopy o p) :=
  .ite (s.landRow_tracks _ _ _).keeps
    (((s.returnPoolRow_tracks _ _ _).trans (State.landRow_tracks _ _ _ _)).keeps.trans (State.memoryError_keeps _ _ _ _))

theorem State.landWrite_tracks (s : State) (o : WriteOp) : s.Tracks (s.landWrite o) :=
  .ite (s.landRow_tracks _ _ _) (s.landRow_tracks _ _ _)

theorem State.landCopy_tracks (s : State) (o : WriteOp) (p : PoolRow) : s.Tracks (s.landCopy o p) :=
  .ite (s.landRow_tracks _ _ _) (s.landRow_tracks _ _ _)

theorem State.reportOp_tracks (s : State) (n : Nat) : s.Tracks (s.reportOp n) :=
  State.Tracks.trans (t := s.answered n) (.of_eq rfl rfl rfl) (State.retireOp_tracks _ n)

theorem State.storeRecord_tracks (s : State) (o : WriteOp) : s.Tracks (s.storeRecord o) := by
  unfold State.storeRecord
  split <;> exact .of_eq rfl rfl rfl

theorem State.rememberLate_tracks (s : State) (n : Nat) (o : Option WriteOp) : s.Tracks (s.rememberLate n o) :=
  .ite (.of_eq rfl rfl rfl) (.refl s)

end Keeps

end Sys2Proof.Machine
end

section
/-! SUPPORT. The end of an event leaves nothing waiting (R26, R107, R144; log 12): the STARTs held are taken, the search goes on to
its next read or its result, and each read command to its next read or its answer. -/

namespace Sys2Proof.Machine

/-! ### Held STARTs (R26) -/

theorem State.takeHeldStart_not_waits {s : State} {i : SourceId} (j : SourceId) (h : ¬ (s.source i).startWaits) :
    ¬ ((s.takeHeldStart j).source i).startWaits := by
  have htakes := s.takeHeldStart_takesHeld j
  by_cases hij : i = j
  · exact hij ▸ htakes.taken
  · exact fun hw => h ((htakes.others i hij).startWaits hw)

/-- Once each source has been asked, none waits to take a START. -/
theorem State.takeHeldStarts_not_waits (s : State) (i : SourceId) :
    ¬ ((allSources.foldl (fun s i => s.takeHeldStart i) s).source i).startWaits := by
  have hall : ∀ i : SourceId, i = 0 ∨ i = 1 ∨ i = 2 := by decide
  simp only [allSources, List.foldl_cons, List.foldl_nil]
  rcases hall i with rfl | rfl | rfl
  · exact State.takeHeldStart_not_waits 2 (State.takeHeldStart_not_waits 1 (s.takeHeldStart_takesHeld 0).taken)
  · exact State.takeHeldStart_not_waits 2 ((s.takeHeldStart 0).takeHeldStart_takesHeld 1).taken
  · exact (((s.takeHeldStart 0).takeHeldStart 1).takeHeldStart_takesHeld 2).taken

/-! ### The search (R107) -/

/-- From `s` to `t` neither a source nor a cursor nor the holder of a cursor's read has changed. -/
structure State.Searches (s t : State) : Prop where
  sources : t.sources = s.sources
  cursors : t.cursors = s.cursors
  holders : t.holders = s.holders

theorem State.Searches.refl (s : State) : s.Searches s := ⟨rfl, rfl, rfl⟩
theorem State.Searches.trans {s t u : State} (h : s.Searches t) (k : t.Searches u) : s.Searches u :=
  ⟨k.sources.trans h.sources, k.cursors.trans h.cursors, k.holders.trans h.holders⟩

theorem State.Remosaics.searches {s t : State} (h : s.Remosaics t) : s.Searches t := by
  rw [h.only]
  exact ⟨rfl, rfl, rfl⟩

theorem State.runSearch_searches (fuel : Nat) (s : State) : s.Searches (s.runSearch fuel) := by
  induction fuel generalizing s with
  | zero => exact .refl s
  | succ fuel ih =>
    unfold State.runSearch
    split
    · exact .refl s
    · split
      · exact (s.recordSeam_remosaics _).searches
      · split
        · exact ⟨rfl, rfl, rfl⟩
        · have hkept : ∀ x p, s.Searches (s.keepRow x p) := fun _ _ => ⟨rfl, rfl, rfl⟩
          exact (hkept _ _).trans (ih _)

theorem State.carrySearch_searches (s : State) : s.Searches s.carrySearch := by
  unfold State.carrySearch
  split
  · exact .refl s
  · split
    · exact .refl s
    · exact s.runSearch_searches _

/-- The engine is idle, or has a read at the controller. -/
def State.SearchRests (s : State) : Prop := s.engine.isSome = true → s.seamHolder.isSome = true

theorem State.engine_recordSeam (s : State) (x : Search) : (s.recordSeam x).engine = none := by
  have hidle : ∀ u v : State, u.engine = none → u.Remosaics v → v.engine = none := fun u v hu h => by
    rcases h.engine with hv | hv
    · rw [hv, hu]
    · exact hv
  exact hidle _ _ (hidle _ _ rfl (State.testJoining_remosaics s _ _)) (State.testJoined_remosaics s _ _)

/-- The rows that the windows of a search still want. -/
def Search.rowsLeft (x : Search) : Nat := x.upperCount + x.overlap - x.taken.length

theorem Search.taken_lt_of_nextRow {x : Search} {p : FrameId × Nat} (h : x.nextRow = some p) :
    x.taken.length < x.upperCount + x.overlap := by
  unfold Search.nextRow at h
  dsimp only at h
  split at h
  · omega
  · split at h
    · assumption
    · cases h

/-- With fuel for the rows left, the search comes to a read or to its result. -/
theorem State.runSearch_rests (fuel : Nat) {s : State} (h : ∀ x, s.engine = some x → x.rowsLeft < fuel) :
    (s.runSearch fuel).SearchRests := by
  induction fuel generalizing s with
  | zero =>
    intro he
    obtain ⟨x, hx⟩ := Option.isSome_iff_exists.mp he
    exact absurd (h x hx) (Nat.not_lt_zero _)
  | succ fuel ih =>
    unfold State.runSearch
    split
    · next hnone => exact fun he => absurd he (by simp [hnone])
    · next x hx =>
      split
      · exact fun he => absurd he (by rw [State.engine_recordSeam]; decide)
      · next hrow =>
        split
        · exact fun _ => rfl
        · refine ih fun y hy => ?_
          have hleft := h x hx
          have hlt := Search.taken_lt_of_nextRow hrow
          cases hy
          simp only [Search.rowsLeft, List.length_append, List.length_singleton] at hleft ⊢
          have hcount : ∀ l, ({ x with taken := l } : Search).upperCount = x.upperCount := fun _ => rfl
          rw [hcount]
          omega

theorem State.carrySearch_rests (s : State) : s.carrySearch.SearchRests := by
  unfold State.carrySearch
  split
  · next hnone => exact fun he => absurd he (by simp [hnone])
  · next x hx =>
    split
    · next hheld => exact fun _ => hheld
    · refine State.runSearch_rests _ fun y hy => ?_
      rw [hx] at hy
      cases hy
      unfold Search.rowsLeft
      omega

/-! ### The read commands (R144) -/

/-- An open cursor's command is to take its next row, and its holder is empty. -/
def State.Retakes (s : State) (c : CursorId) : Prop :=
  (s.cursor c).openFields.isSome = true ∧ (∃ j ∈ (s.cursor c).job, j.phase = .retake) ∧ s.holder (.cursor c) = none

theorem State.atRest_iff (s : State) :
    s.atRest ↔ (∀ i, ¬ (s.source i).startWaits) ∧ s.SearchRests ∧ ∀ c, ¬ s.Retakes c := by
  refine and_congr (forall_congr' fun i => ?_) (and_congr Iff.rfl (forall_congr' fun c => ?_))
  · rw [Source.startWaits, not_and, not_and]
    exact forall_congr' fun _ => forall_congr' fun _ => Option.isSome_iff_ne_none
  · rw [State.Retakes, not_and, not_and]
    refine forall_congr' fun _ => ⟨fun h ⟨j, hj, hp⟩ hn => ?_, fun h j hj hp => Option.isSome_iff_ne_none.mpr (h ⟨j, hj, hp⟩)⟩
    exact Option.isSome_iff_ne_none.mp (h j hj hp) hn

/-- From `s` to `t` the command of cursor `c` has gone on: no other cursor has changed, nor the holder of its reads. -/
structure State.RunsJob (c : CursorId) (s t : State) : Prop where
  sources : t.sources = s.sources
  engine  : t.engine = s.engine
  seam    : t.seamHolder = s.seamHolder
  cursors : ∀ d, d ≠ c → t.cursor d = s.cursor d
  holders : ∀ d, d ≠ c → t.holder (.cursor d) = s.holder (.cursor d)

theorem State.RunsJob.refl (c : CursorId) (s : State) : s.RunsJob c s := ⟨rfl, rfl, rfl, fun _ _ => rfl, fun _ _ => rfl⟩
theorem State.RunsJob.trans {c : CursorId} {s t u : State} (h : s.RunsJob c t) (k : t.RunsJob c u) : s.RunsJob c u :=
  ⟨k.sources.trans h.sources, k.engine.trans h.engine, k.seam.trans h.seam,
    fun d hd => (k.cursors d hd).trans (h.cursors d hd), fun d hd => (k.holders d hd).trans (h.holders d hd)⟩

theorem State.setCursor_runsJob (s : State) (c : CursorId) (x : Cursor) : s.RunsJob c (s.setCursor c x) :=
  ⟨rfl, rfl, rfl, fun d hd => by rw [State.cursor_setCursor, if_neg hd], fun _ _ => rfl⟩

theorem State.finishJob_runsJob (s : State) (c : CursorId) (x : CursorFields) (j : ReadJob) (st : Status) :
    s.RunsJob c (s.finishJob c x j st) := by
  have hanswer : ∀ (u : State) (n : ClientId) (b : List Byte), u.RunsJob c (u.answer n st b) := fun u n b =>
    ⟨rfl, rfl, rfl, fun _ _ => rfl, fun _ _ => rfl⟩
  exact (s.setCursor_runsJob c _).trans (hanswer _ _ _)

theorem State.placeRead_runsJob (s : State) (c : CursorId) (f : FrameId) (r : Nat) (d : DrumClass) (p : Option PoolRow) :
    s.RunsJob c (s.placeRead (.cursor c) f r d p) :=
  ⟨rfl, rfl, rfl, fun _ _ => rfl, fun e he => by
    rw [State.placeRead, State.holder_setHolder, if_neg fun h => he (ReadHolder.cursor.inj h)]⟩

theorem State.runJob_runsJob (fuel : Nat) (s : State) (c : CursorId) : s.RunsJob c (s.runJob fuel c) := by
  induction fuel generalizing s with
  | zero => exact .refl c s
  | succ fuel ih =>
    have hpark : ∀ (u : State) (j : ReadJob) (p : JobPhase), u.RunsJob c (u.parkJob c j p) := fun u _ _ => u.setCursor_runsJob c _
    unfold State.runJob
    split
    · split
      · exact s.finishJob_runsJob c _ _ _
      · dsimp only
        split
        · exact s.finishJob_runsJob c _ _ _
        · split
          · exact (hpark _ _ _).trans (ih _)
          · split
            · exact hpark _ _ _
            · exact (s.placeRead_runsJob c _ _ _ _).trans (hpark _ _ _)
    · exact .refl c s
    · exact .refl c s

theorem JobKind.lt_rows_of_row {k : JobKind} {x : CursorFields} {n row : Nat} (h : k.row x n = some row) : n < k.rows := by
  unfold JobKind.row at h
  split at h <;> split at h
  · assumption
  · cases h
  · assumption
  · cases h

/-- With fuel for the rows left, a command comes to a read, to one that waits for a discarded read, or to its answer. -/
theorem State.runJob_not_retakes (fuel : Nat) {s : State} {c : CursorId}
    (h : ∀ j, (s.cursor c).job = some j → j.kind.rows - j.items.length < fuel) : ¬ (s.runJob fuel c).Retakes c := by
  have hparked : ∀ (u : State) (j : ReadJob) (p : JobPhase), ((u.parkJob c j p).cursor c).job = some { j with phase := p } :=
    fun u j p => by rw [State.parkJob, State.modifyCursor_eq, State.cursor_setCursor_self]
  have hfinished : ∀ (u : State) x j st, ¬ (u.finishJob c x j st).Retakes c := fun u x j st ⟨_, ⟨k, hk, _⟩, _⟩ => by
    have hjob : ((u.finishJob c x j st).cursor c).job = none := congrArg Cursor.job (State.cursor_setCursor_self u c _)
    rw [Option.mem_def, hjob] at hk
    cases hk
  induction fuel generalizing s with
  | zero =>
    rintro ⟨_, ⟨j, hj, _⟩, _⟩
    exact absurd (h j hj) (Nat.not_lt_zero _)
  | succ fuel ih =>
    unfold State.runJob
    split
    · next x j hx hj =>
      split
      · exact hfinished _ _ _ _
      · next row hrow =>
        dsimp only
        split
        · exact hfinished _ _ _ _
        · split
          · refine ih fun k hk => ?_
            rw [hparked] at hk
            cases hk
            have hlt := JobKind.lt_rows_of_row hrow
            have hleft := h j hj
            simp only [List.length_append, List.length_singleton]
            omega
          · split
            · next hheld =>
              rintro ⟨_, _, hn⟩
              have hkept : (s.parkJob c j .retake).holder (.cursor c) = s.holder (.cursor c) := rfl
              rw [hkept] at hn
              rw [hn] at hheld
              cases hheld
            · rintro ⟨_, ⟨k, hk, hp⟩, _⟩
              rw [Option.mem_def, hparked] at hk
              cases hk
              cases hp
    · next hnone =>
      rintro ⟨_, ⟨j, hj, _⟩, _⟩
      rw [Option.mem_def, hnone] at hj
      cases hj
    · next hclosed =>
      rintro ⟨ho, _, _⟩
      rw [hclosed] at ho
      cases ho

theorem State.resumeJob_runsJob (s : State) (c : CursorId) : s.RunsJob c (s.resumeJob c) := by
  unfold State.resumeJob
  split
  · split
    · exact s.runJob_runsJob _ c
    · exact .refl c s
  · exact .refl c s

theorem State.resumeJob_not_retakes (s : State) (c : CursorId) : ¬ (s.resumeJob c).Retakes c := by
  unfold State.resumeJob
  split
  · next j hj =>
    split
    · refine State.runJob_not_retakes _ fun k hk => ?_
      rw [hj] at hk
      cases hk
      omega
    · next hno =>
      rintro ⟨_, ⟨k, hk, hp⟩, hn⟩
      rw [Option.mem_def, hj] at hk
      cases hk
      exact hno ⟨hp, by rw [hn]; rfl⟩
  · next hnone =>
    rintro ⟨_, ⟨j, hj, _⟩, _⟩
    rw [Option.mem_def, hnone] at hj
    cases hj

theorem State.RunsJob.retakes {c d : CursorId} {s t : State} (h : s.RunsJob c t) (hd : d ≠ c) : t.Retakes d ↔ s.Retakes d := by
  unfold State.Retakes
  rw [h.cursors d hd, h.holders d hd]

/-- Once each cursor has been asked, no command is to take its next row. -/
theorem State.resumeJobs_spec (s : State) : s.resumeJobs.sources = s.sources ∧ s.resumeJobs.engine = s.engine
    ∧ s.resumeJobs.seamHolder = s.seamHolder ∧ ∀ c, ¬ s.resumeJobs.Retakes c := by
  have fold : ∀ (l : List CursorId) (s : State), let t := l.foldl (fun s c => s.resumeJob c) s
      t.sources = s.sources ∧ t.engine = s.engine ∧ t.seamHolder = s.seamHolder
        ∧ ∀ c, c ∈ l ∨ ¬ s.Retakes c → ¬ t.Retakes c := by
    intro l
    induction l with
    | nil => exact fun s => ⟨rfl, rfl, rfl, fun c hc => hc.resolve_left (by simp)⟩
    | cons d l ih =>
      intro s
      obtain ⟨hsources, hengine, hseam, hretakes⟩ := ih (s.resumeJob d)
      have hruns := s.resumeJob_runsJob d
      refine ⟨hsources.trans hruns.sources, hengine.trans hruns.engine, hseam.trans hruns.seam, fun c hc => hretakes c ?_⟩
      by_cases hcd : c = d
      · exact .inr (hcd ▸ s.resumeJob_not_retakes d)
      · rcases hc with hmem | hno
        · exact .inl ((List.mem_cons.mp hmem).resolve_left hcd)
        · exact .inr fun h => hno ((hruns.retakes hcd).mp h)
  obtain ⟨hsources, hengine, hseam, hretakes⟩ := fold allCursors s
  exact ⟨hsources, hengine, hseam, fun c => hretakes c (.inl (mem_allCursors c))⟩

/-- Whatever an event has done, its end leaves nothing waiting (log 12). -/
theorem State.closeEvent_atRest (s : State) : s.closeEvent.atRest := by
  have hstarts := s.takeHeldStarts_not_waits
  unfold State.closeEvent
  generalize allSources.foldl (fun s i => s.takeHeldStart i) s = u at hstarts ⊢
  have hsearches := u.carrySearch_searches
  have hrests := u.carrySearch_rests
  generalize u.carrySearch = v at hsearches hrests ⊢
  obtain ⟨hsources, hengine, hseam, hretakes⟩ := v.resumeJobs_spec
  refine (State.atRest_iff _).mpr ⟨fun i => ?_, ?_, hretakes⟩
  · have hsource : v.resumeJobs.source i = u.source i := by simp only [State.source, hsources, hsearches.sources]
    rw [hsource]
    exact hstarts i
  · unfold State.SearchRests
    rw [hengine, hseam]
    exact hrests

end Sys2Proof.Machine
end

section
/-! SUPPORT. Every command keeps the rings, the rejections and the commands in progress right (R29, R40, R139): the events of the
links, of the placement engine and of the picture memory, and the client commands at their ports. -/

namespace Sys2Proof.Machine

section Keeps
variable {m : Option ClientId}

/-! ### The records and timers of a link (chapter 2) -/

theorem State.record_keeps (s : State) (i : SourceId) (take : State → State) (h : ∀ u : State, u.Keeps m (take u)) :
    s.Keeps m (s.record i take) :=
  State.Keeps.trans (.ite (s.modifySource_keeps i _ (Source.recover_goes _))
    ((s.modifySource_keeps i _ (Source.goodRecord_goes _)).trans (h _))) (State.closeEvent_keeps _)

theorem State.takeStart_keeps (s : State) (i : SourceId) (x : StartRecord) : s.Keeps m (s.takeStart i x) := by
  have hended : (s.source i).state.inStream = true →
      s.Keeps m (s.modifySource i (fun y => { y.endStream .lost with held := some x })) := fun hs => by
    have hput : ((s.source i).endStream .lost).Goes { (s.source i).endStream .lost with held := some x } := .of_eq rfl rfl rfl rfl
    exact s.modifySource_keeps i _ ((Source.endStream_goes .lost hs).trans hput)
  unfold State.takeStart
  split
  · split
    · next hb => exact (s.bindStart_binds i x).keeps fun _ => Option.isNone_iff_eq_none.mp hb
    · exact s.modifySource_keeps i _ (.of_eq rfl rfl rfl rfl)
  · next h => exact hended (by rw [h]; rfl)
  · next h => exact hended (by rw [h]; rfl)
  · next h => exact hended (by rw [h]; rfl)
  · exact s.modifySource_keeps i _ (.of_eq rfl rfl rfl rfl)
  · next h =>
    have hset : (s.modifySource i (fun y => { y with state := .idle })).source i = { s.source i with state := .idle } :=
      State.source_setSource_self s i _
    have hbinds := (s.modifySource i (fun y => { y with state := .idle })).bindStart_binds i x
    have hheard : s.Keeps m (s.modifySource i (fun y => { y with state := .idle })) :=
      s.modifySource_keeps i _ (.of_same rfl rfl (fun h => by cases h) (fun h => by cases h) id)
    refine ⟨fun j => ?_, hbinds.idle, fun _ => hbinds.jobs⟩
    by_cases hj : j = i
    · subst hj
      exact ⟨fun hok => hbinds.ring (by rw [hset]; exact hok.unbound_of_discarding h) ((hheard.sources j).ring hok),
        fun hrej => hbinds.rejections ((hheard.sources j).rejections hrej)⟩
    · exact (hheard.sources j).trans (hbinds.others j hj).goes
  · exact .refl s

theorem State.rejectLine_keeps (s : State) (i : SourceId) (rate : LineRate) (q d : Nat) : s.Keeps m (s.rejectLine i rate q d) := by
  have htracked : ∀ u : State, u.Keeps m (u.modifySource i (fun x => ((x.trackSequence rate q).refreshFade).endIfRejected)) :=
    fun u => u.modifySource_keeps i _ (((Source.trackSequence_goes _ _ _).trans (Source.refreshFade_goes _)).trans
      (Source.endIfRejected_goes _))
  exact ((s.modifySource_keeps i _ (Source.countRejected_goes _)).trans (State.logError_tracks _ _).keeps).trans (htracked _)

theorem State.acceptLine_keeps {s : State} {i : SourceId} (hs : (s.source i).state.inStream = true) (g : Geometry) (q k w : Nat)
    (p : List Byte) : s.Keeps m (s.acceptLine i g q k w p) := by
  have hskew : (s.source i).Goes ((s.source i).trackSkew (drumWidth g.drum) k) := .of_eq rfl rfl rfl rfl
  have htracked := (hskew.trans (Source.trackSequence_goes _ g.rate q)).trans (Source.refreshFade_goes _)
  have hstate : ((((s.source i).trackSkew (drumWidth g.drum) k).trackSequence g.rate q).refreshFade).state = (s.source i).state :=
    Source.refreshFade_state _
  unfold State.acceptLine
  dsimp only
  split
  · next hlen => exact s.setSource_keeps i _ (htracked.trans (Source.pushLine_goes _ (by rw [hstate]; exact hs) hlen))
  · refine (s.setSource_keeps i _ (htracked.trans ?_)).trans (State.logError_tracks _ _).keeps
    exact .of_eq rfl rfl rfl rfl

theorem State.takeLine_keeps {s : State} {i : SourceId} (hs : (s.source i).state.inStream = true) (q k w : Nat)
    (p : List Byte) : s.Keeps m (s.takeLine i q k w p) := by
  unfold State.takeLine
  split
  · exact .refl s
  · exact .ite (s.rejectLine_keeps i _ q 1) (.ite (s.rejectLine_keeps i _ q 2) (State.acceptLine_keeps hs _ q k w p))

theorem State.takeImage_keeps (s : State) (i : SourceId) (q k w : Nat) (p : List Byte) : s.Keeps m (s.takeImage i q k w p) := by
  have hcount : s.Keeps m (s.modifySource i Source.countReceived) := s.modifySource_keeps i _ (Source.countReceived_goes _)
  have hsource : (s.modifySource i Source.countReceived).source i = (s.source i).countReceived := State.source_setSource_self s i _
  unfold State.takeImage
  dsimp only
  split
  · next h => exact hcount.trans (State.takeLine_keeps (by rw [hsource, Source.countReceived, h]; rfl) q k w p)
  · next h => exact hcount.trans (State.takeLine_keeps (by rw [hsource, Source.countReceived, h]; rfl) q k w p)
  · next h =>
    have hearly := (s.modifySource i Source.countReceived).modifySource_keeps (m := m) i Source.endPhasingEarly
      (Source.endPhasingEarly_goes (by rw [hsource]; exact h))
    refine (hcount.trans hearly).trans (State.takeLine_keeps ?_ q k w p)
    rw [State.modifySource_eq _ _ Source.endPhasingEarly, State.source_setSource_self, Source.endPhasingEarly_state]
    rfl
  · exact hcount
  · exact hcount
  · exact hcount
  · exact .refl s

theorem State.enterFaded_keeps {s : State} {i : SourceId} (hs : (s.source i).state.inStream = true) (b : Bool) :
    s.Keeps m (s.enterFaded i b) := by
  refine (s.modifySource_keeps i _ ?_).trans (State.raise_tracks _ _ _).keeps
  exact .of_same rfl rfl (fun _ => hs) (fun h => by cases h) id

theorem State.takeDrop_keeps (s : State) (i : SourceId) : s.Keeps m (s.takeDrop i) := by
  unfold State.takeDrop
  split
  · next h => exact State.enterFaded_keeps (by rw [h]; rfl) false
  · next h =>
    refine (s.modifySource_keeps i _ (Source.endPhasingEarly_goes h)).trans (State.enterFaded_keeps ?_ false)
    rw [State.modifySource_eq, State.source_setSource_self, Source.endPhasingEarly_state]
    rfl
  · exact s.modifySource_keeps i _ (.of_same rfl rfl (fun h => by cases h) (fun h => by cases h) id)
  · exact .refl s
  · exact .refl s
  · exact .refl s
  · exact .refl s

theorem State.loseLink_keeps (s : State) (i : SourceId) (d : Nat) : s.Keeps m (s.loseLink i d) :=
  (s.modifySource_keeps i _ (Source.lose_goes _)).trans (State.logError_tracks _ _).keeps

theorem State.failCheck_keeps (s : State) (i : SourceId) (d : Nat) : s.Keeps m (s.failCheck i d) := by
  have hcount : (s.source i).Goes { s.source i with checkFailures := stickyNext 4 (s.source i).checkFailures } :=
    .of_eq rfl rfl rfl rfl
  have hlogged : ∀ e, s.Keeps m ((s.modifySource i (fun x => { x with checkFailures := stickyNext 4 x.checkFailures })).logError e) :=
    fun e => (s.modifySource_keeps i _ hcount).trans (State.logError_tracks _ _).keeps
  exact .ite ((hlogged _).trans (State.loseLink_keeps _ i 2)) (hlogged _)

theorem State.markMissed_tracks (s : State) (b : StreamBinding) (f q : Nat) : s.Tracks (s.markMissed b f q) := by
  unfold State.markMissed
  split
  · exact .refl s
  · split
    · exact .refl s
    · exact .ite (s.setRow_tracks _ _ _) (.refl s)

theorem State.missLine_keeps {s : State} {i : SourceId} (hs : (s.source i).state = .receiving) (b : StreamBinding) (f q : Nat) :
    s.Keeps m (s.missLine i b f q) := by
  have hmark := s.markMissed_tracks b f q
  have hcounted : ∀ u : State, u.Keeps m (u.modifySource i (fun x =>
      { x with
        expectedSeq := some (nextSeq q), misses := stickyNext 255 x.misses
        linePeriodTimer := some (periodMs b.geometry.rate) })) := fun u => u.modifySource_keeps i _ (.of_eq rfl rfl rfl rfl)
  unfold State.missLine
  dsimp only
  have hgap := State.Keeps.ite (p := (s.source i).misses = 0) ((hmark.keeps.trans (hcounted _)).trans
    (State.raise_tracks _ (.source i) (.gap b.frame q)).keeps) (hmark.keeps.trans (hcounted _))
  refine .ite (hgap.trans (State.enterFaded_keeps ?_ true)) hgap
  have hstate : ((s.markMissed b f q).source i).state = .receiving := by rw [hmark.sources i]; exact hs
  split
  · rw [State.source_raise, State.modifySource_eq, State.source_setSource_self]
    dsimp only
    rw [hstate]
    rfl
  · rw [State.modifySource_eq, State.source_setSource_self]
    dsimp only
    rw [hstate]
    rfl

/-! ### The placement engine (chapter 3) -/

theorem State.detachSource_setSource (s : State) (i j : SourceId) (x : Source) (f : FrameId) :
    (s.setSource i x).detachSource f j = (s.detachSource f j).setSource i x := by
  unfold State.detachSource
  rw [State.frame_setSource]
  split
  · dsimp only
    split <;> rfl
  · rfl

theorem State.raise_setSource (s : State) (i : SourceId) (x : Source) (o : Origin) (d : NoticeDetail) :
    (s.setSource i x).raise o d = (s.raise o d).setSource i x := by
  simp only [State.raise_eq]
  rfl

/-- A marker taken from a bound source: its frame loses it, SOURCE_END is raised, and the source detaches (R41). -/
theorem State.takeMarker_eq {s : State} {i : SourceId} {b : StreamBinding} (hb : (s.source i).binding = some b) (e : StopEnd) :
    s.takeMarker i e = ((s.detachSource b.frame i).raise (.source i) (.sourceEnd b.frame b.pass e)).setSource i
      (s.source i).markerTaken := by
  unfold State.takeMarker
  simp only [hb, State.modifySource_eq, State.detachSource_setSource, State.raise_setSource, State.source_setSource_self,
    State.setSource_setSource]
  rfl

theorem State.takeMarker_keeps {s : State} {i : SourceId} {e : StopEnd} {l : List RingRecord}
    (hr : (s.source i).ring = .marker e :: l) : s.Keeps m (s.takeMarker i e) := by
  cases hb : (s.source i).binding with
  | none =>
    unfold State.takeMarker
    rw [hb]
    exact s.modifySource_keeps i _ (Source.removeHead_goes _)
  | some b =>
    rw [State.takeMarker_eq hb]
    have hraised := (s.detachSource_tracks b.frame i).trans (State.raise_tracks _ (.source i) (.sourceEnd b.frame b.pass e))
    generalize (s.detachSource b.frame i).raise (.source i) (.sourceEnd b.frame b.pass e) = u at hraised ⊢
    refine ⟨fun j => ?_, hraised.idle, fun _ => hraised.jobs⟩
    rw [State.source_setSource]
    split
    · next hj => subst hj; exact Source.markerTaken_goes hr
    · exact (hraised.sources j).goes

theorem State.leaveHead_keeps (s : State) (i : SourceId) (h : HeadState) : s.Keeps m (s.leaveHead i h) :=
  s.modifySource_keeps i _ (.of_eq rfl rfl rfl rfl)

theorem State.post_tracks (s : State) (o : WriteOp) : s.Tracks (s.post o) := .of_eq rfl rfl rfl

theorem State.postWrite_keeps (s : State) (i : SourceId) (b : StreamBinding) (row : Nat) (e : RowEntry) (l : LineInfo)
    (p : List Byte) : s.Keeps m (s.postWrite i b row e l p) := by
  have hplaced : ∀ u : State, u.Keeps m (u.modifySource i (fun x => x.removeHead.countPlaced)) := fun u =>
    u.modifySource_keeps i _ ((Source.removeHead_goes _).trans (.of_same rfl rfl id id fun _ => Nat.zero_le _))
  exact ((s.setRow_tracks _ _ _).trans (State.post_tracks _ _)).keeps.trans (hplaced _)

theorem State.givePoolRow_tracks (s : State) (p : PoolRow) (v : ViewId) (f : FrameId) (r : Nat) :
    s.Tracks (s.givePoolRow p v f r) := (s.setPoolRow_tracks p _).trans (State.modifyView_tracks _ _ _)

theorem State.writeLine_keeps (s : State) (i : SourceId) (b : StreamBinding) (row : Nat) (e : RowEntry) (l : LineInfo)
    (p : List Byte) : s.Keeps m (s.writeLine i b row e l p) := by
  unfold State.writeLine
  refine .ite (s.leaveHead_keeps i _) ?_
  split
  · refine .ite (s.postWrite_keeps i b row _ l p) ?_
    split
    · exact ((s.givePoolRow_tracks _ _ _ _).trans ((State.setRow_tracks _ _ _ _).trans (State.post_tracks _ _))).keeps.trans
        (State.leaveHead_keeps _ i _)
    · have htorn : ∀ v, s.Tracks (s.tearView b.frame row v) := fun v =>
        ((s.modifyView_tracks _ _).trans (State.raise_tracks _ _ _)).trans (State.logError_tracks _ _)
      exact (htorn _).keeps.trans (State.postWrite_keeps _ i b row _ l p)
  · exact s.postWrite_keeps i b row e l p
  · exact s.postWrite_keeps i b row e l p

theorem State.placeHead_keeps (s : State) (i : SourceId) (r : LineRecord) : s.Keeps m (s.placeHead i r) := by
  have hmerged : (s.source i).Goes (s.source i).removeHead.countMergedOut :=
    (Source.removeHead_goes _).trans (.of_same rfl rfl id id fun _ => Nat.zero_le _)
  unfold State.placeHead
  split
  · split
    · exact (s.modifySource_keeps i _ (((Source.removeHead_goes _).trans (Source.countRejected_goes _)).trans
        (Source.endIfRejected_goes _))).trans (State.logError_tracks _ _).keeps
    · split
      · exact .refl s
      · exact .ite (s.leaveHead_keeps i _) (.ite (s.writeLine_keeps i _ _ _ _ _) (s.modifySource_keeps i _ hmerged))
  · exact .refl s
  · exact .refl s

theorem State.takeHead_keeps (s : State) (i : SourceId) : s.Keeps m (s.takeHead i) := by
  have hpointer : s.Tracks { s with pointer := i + 1 } := .of_eq rfl rfl rfl
  unfold State.takeHead
  split
  · exact .refl s
  · next hr => exact hpointer.keeps.trans (State.takeMarker_keeps hr)
  · exact hpointer.keeps.trans (State.placeHead_keeps _ i _)

/-! ### The picture memory's reports (chapter 6) -/

theorem State.answered_tracks (s : State) (n : Nat) : s.Tracks (s.answered n) := .of_eq rfl rfl rfl

theorem State.grant_tracks (s : State) : s.Tracks s.grant := by
  have hissue : ∀ h, s.Tracks (s.issueRead h) := fun h =>
    State.Tracks.trans (s.setHolder_tracks h ((s.holder h).map fun r => { r with issued := some s.issueCount })) (.of_eq rfl rfl rfl)
  unfold State.grant
  split
  · exact .of_eq rfl rfl rfl
  · split
    · exact (hissue _).trans (.of_eq rfl rfl rfl)
    · exact .ite (hissue _) (.refl s)

/-! ### Client commands (chapter 11) -/

theorem State.setPort_tracks (s : State) (n : ClientId) (x : Port)
    (h : (s.port n).state = .executing → x.state = .executing) : s.Tracks (s.setPort n x) := by
  refine .of_fewer (fun _ => rfl) (fun _ => id) fun k hk => ?_
  rw [State.port_setPort]
  split
  · next e => exact h (e ▸ hk)
  · exact hk

theorem State.answerBusy_tracks (s : State) (n : ClientId) (tag : Option Nat) : s.Tracks (s.answerBusy n tag) := by
  cases tag with
  | some t => exact s.setPort_tracks n _ id
  | none =>
    have hset := s.setPort_tracks n { s.port n with busyTag := some (Config.tagOfTaglessFrame s.freeDraws) } id
    exact hset.trans (.of_eq rfl rfl rfl)

/-- A port without a command in progress answers. -/
theorem State.answer_keeps (s : State) (n : ClientId) (st : Status) (b : List Byte) : s.Keeps (some n) (s.answer n st b) := by
  refine ⟨fun _ => .refl _, fun _ => id, fun hfree hs c hc => ?_⟩
  have howner : ownerOf c ≠ n := fun h => ne_none_of_isSome hc (hfree n rfl c h)
  obtain ⟨hport, hother⟩ := hs c hc
  refine ⟨?_, hother⟩
  unfold State.answer
  rw [State.port_setPort, if_neg howner]
  exact hport

/-- From `s` to `t` each source keeps its ring and its rejections right, and the commands in progress stay right. -/
structure State.Steps (s t : State) : Prop where
  sources : ∀ i, (s.source i).Goes (t.source i)
  jobs    : s.jobsOk → t.jobsOk

theorem State.Keeps.steps {s t : State} (h : s.Keeps none t) : s.Steps t :=
  ⟨h.sources, h.jobs fun _ hn => by cases hn⟩

theorem State.Tracks.steps {s t : State} (h : s.Tracks t) : s.Steps t := h.keeps.steps

/-- A port that is not EXECUTING has no command in progress on a cursor (R139). -/
theorem State.jobsOk.unserved {s : State} (h : s.jobsOk) {n : ClientId} (hn : (s.port n).state ≠ .executing) :
    s.Unserved (some n) := by
  intro k hk c hc
  cases hk
  by_contra hjob
  exact hn (hc ▸ (h c (Option.isSome_iff_ne_none.mpr hjob)).1)

/-- A command taken at its port, which has none in progress, keeps what it carries out keeps. -/
theorem State.Steps.taken {s : State} {n : ClientId} {tag : Nat} {run : State → State}
    (hn : (s.port n).state = .idle ∨ (s.port n).state = .done)
    (h : ∀ u : State, (u.port n).state = .executing → (∀ i, (u.source i).Goes ((run u).source i))
      ∧ (u.Unserved (some n) → u.jobsOk → (run u).jobsOk)) : s.Steps (run (s.beginCommand n tag)) := by
  have hidle : (s.port n).state ≠ .executing := by rcases hn with hn | hn <;> rw [hn] <;> decide
  have hbegun := s.setPort_tracks n { s.port n with state := .executing, buffer := none, tag := tag } fun _ => rfl
  obtain ⟨hsources, hjobs⟩ := h (s.beginCommand n tag)
    (congrArg Port.state (State.port_setPort_self s n { s.port n with state := .executing, buffer := none, tag := tag }))
  exact ⟨hsources, fun hs => hjobs (fun k hk c hc => hs.unserved hidle k hk c hc) (hbegun.jobs hs)⟩

theorem State.request_steps_of_run (s : State) (n : ClientId) (tag : Nat) (classes : List CommandClass) (run : State → State)
    (h : ∀ u : State, (u.port n).state = .executing → (∀ i, (u.source i).Goes ((run u).source i))
      ∧ (u.Unserved (some n) → u.jobsOk → (run u).jobsOk)) : s.Steps (s.request n tag classes run) := by
  have hdenied : (s.port n).state = .idle ∨ (s.port n).state = .done → s.Steps ((s.beginCommand n tag).answer n .denied []) :=
    fun hn => State.Steps.taken (run := fun u => u.answer n .denied []) hn fun u _ =>
      ⟨(u.answer_keeps n _ _).sources, (u.answer_keeps n _ _).jobs⟩
  unfold State.request
  split
  · exact (State.Tracks.refl s).steps
  · exact (s.answerBusy_tracks n _).steps
  · next hn =>
    split
    · exact .taken (.inl hn) h
    · exact hdenied (.inl hn)
  · next hn =>
    split
    · exact .taken (.inr hn) h
    · exact hdenied (.inr hn)

theorem State.request_steps (s : State) (n : ClientId) (tag : Nat) (classes : List CommandClass) (run : State → State)
    (h : ∀ u : State, u.Keeps (some n) (run u)) : s.Steps (s.request n tag classes run) :=
  s.request_steps_of_run n tag classes run fun u _ => ⟨(h u).sources, (h u).jobs⟩

theorem State.commit_keeps (s : State) (n : ClientId) (target : Option Target) (run : State → State)
    (h : ∀ u : State, u.Keeps (some n) (run u)) : s.Keeps (some n) (s.commit n target run) := by
  have hexpired : s.Tracks (s.expireReservation n) := .of_eq rfl rfl rfl
  have hconflict : ∀ a b, (s.expireReservation n).Keeps (some n) ((s.expireReservation n).conflict n a b) := fun a b =>
    State.answer_keeps _ n _ _
  unfold State.commit
  refine hexpired.keeps.trans ?_
  split
  · exact State.answer_keeps _ n _ _
  · exact .ite (hconflict 0 0) (.ite (hconflict 1 0) (.ite (hconflict 2 _) (h _)))

end Keeps

end Sys2Proof.Machine
end

section
/-! SUPPORT. Every step keeps the rings, the rejections and the commands in progress right (R29, R40, R139). -/

namespace Sys2Proof.Machine

/-! ### The clients' commands, once taken -/

section Taken
variable {n : ClientId}

/-- Operations that give no cursor a command, and then an answer. -/
theorem State.Tracks.answered {s t : State} (h : s.Tracks t) (st : Status) (b : List Byte) :
    s.Keeps (some n) (t.answer n st b) := h.keeps.trans (t.answer_keeps n st b)

theorem State.setEntry_tracks (s : State) (e : EntryId) (x : ScheduleEntry) : s.Tracks (s.setEntry e x) := .of_eq rfl rfl rfl
theorem State.setClient_tracks (s : State) (k : ClientId) (x : NoticeClient) : s.Tracks (s.setClient k x) := .of_eq rfl rfl rfl
theorem State.setReservation_tracks (s : State) (k : ClientId) (x : Reservation) : s.Tracks (s.setReservation k x) :=
  .of_eq rfl rfl rfl
theorem State.dropReservations_tracks (s : State) (t : Target) : s.Tracks (s.dropReservations t) := .of_eq rfl rfl rfl

theorem State.committed_keeps (s : State) (t : Target) : s.Keeps (some n) (s.committed n t) := s.answer_keeps n _ _

theorem State.changeEntry_tracks (s : State) (e : EntryId) (d : Option (EntryMode × EntryFields)) (op : ScheduleOp) :
    s.Tracks (s.changeEntry n e d op) := (s.setEntry_tracks e _).trans (State.raise_tracks _ _ _)

theorem State.writeEntry_keeps (s : State) (e : EntryId) (a : EntryArgs) : s.Keeps (some n) (s.writeEntry n e a) := by
  unfold State.writeEntry
  split
  · exact s.answer_keeps n _ _
  · exact .ite (.ite (s.answer_keeps n _ _) ((s.changeEntry_tracks e _ _).keeps.trans (State.committed_keeps _ _)))
      (s.answer_keeps n _ _)

theorem State.suspendEntry_keeps (s : State) (e : EntryId) : s.Keeps (some n) (s.suspendEntry n e) := by
  unfold State.suspendEntry
  split
  · exact s.answer_keeps n _ _
  · exact (s.changeEntry_tracks e _ _).keeps.trans (State.committed_keeps _ _)

theorem State.vacateEntry_keeps (s : State) (e : EntryId) : s.Keeps (some n) (s.vacateEntry n e) :=
  .ite (s.answer_keeps n _ _) (.ite (s.answer_keeps n _ _)
    (((s.changeEntry_tracks e _ _).trans (State.dropReservations_tracks _ _)).keeps.trans (State.committed_keeps _ _)))

theorem State.annotate_keeps (s : State) (f : FrameId) (k : Nat) (title : List Byte) :
    s.Keeps (some n) (s.annotate n f k title) :=
  .ite ((s.modifyFrame_tracks f _).keeps.trans (State.committed_keeps _ _)) (s.answer_keeps n _ _)

theorem State.release_keeps (s : State) (f : FrameId) : s.Keeps (some n) (s.release n f) :=
  .ite (s.answer_keeps n _ _) (.ite (s.answer_keeps n _ _)
    (((s.freeFrame_tracks f).keeps.trans (State.committed_keeps _ _)).trans (State.closeEvent_keeps _)))

theorem State.defineGroup_remosaics (s : State) (g : GroupId) (d : DrumClass) (l : List MosaicSection) :
    s.Remosaics (s.defineGroup g d l) := by
  unfold State.defineGroup
  refine State.Remosaics.trans ?_ (State.testJoining_remosaics _ _ _)
  refine State.Remosaics.trans (t := (s.enterGroup _ g .gathering).recomputeHeight g) ?_ (State.Remosaics.foldl (fun u k => ?_) _ _)
  · exact ((s.modifyGroup_remosaics g _).trans (State.modifyGroup_remosaics _ g _)).trans (State.recomputeHeight_remosaics _ g)
  · split
    · exact State.takeFrame_remosaics _ _ _ _ _
    · exact .refl u

theorem State.define_keeps (s : State) (g : GroupId) (l : List (Nat × Nat)) : s.Keeps (some n) (s.define n g l) := by
  unfold State.define
  refine .ite (s.answer_keeps n _ _) ?_
  split
  · exact s.answer_keeps n _ _
  · split
    · exact s.answer_keeps n _ _
    · exact (s.defineGroup_remosaics g _ _).tracks.keeps.trans (State.committed_keeps _ _)

theorem State.dissolve_keeps (s : State) (g : GroupId) : s.Keeps (some n) (s.dissolve n g) :=
  .ite (s.answer_keeps n _ _) (((s.dissolveGroup_tracks g).trans (State.dropReservations_tracks _ _)).keeps.trans
    (State.committed_keeps _ _))

theorem State.storeCursor_tracks (s : State) (c : CursorId) (old new : CursorFields) : s.Tracks (s.storeCursor c old new) := by
  unfold State.storeCursor
  refine .ite ((s.detachCursor_tracks c).trans (State.attachCursor_tracks _ c new)) ?_
  refine State.Tracks.trans ?_ (State.modifyCursor_tracks _ c _ id)
  exact .ite (.refl s) (.ite (s.pinCursor_tracks c _) (s.unpinCursor_tracks c))

theorem State.clearStore_keeps {m : Option ClientId} (s : State) : s.Keeps m s.clearStore := by
  unfold State.clearStore
  have hcursors : s.Tracks (allCursors.foldl (fun s c => s.clearCursor c) s) := State.Tracks.foldl (fun s c =>
    ((s.cutJob_tracks c .noSuch).trans (State.abandonRead_tracks _ _)).trans (State.modifyCursor_tracks _ c _ id)) _ s
  have hsources : ∀ u : State, u.Keeps m { u with sources := u.sources.map Source.cleared } := fun u =>
    ⟨fun i => by simpa only [State.source, Vector.getElem_map] using Source.cleared_goes (u.source i), fun _ => id, fun _ => id⟩
  have hslots : ∀ u : State, u.Tracks (allFrames.foldl (fun s f => s.clearSlotOps f) u) := fun u =>
    State.Tracks.foldl (fun s f => (s.clearOps_tracks f).trans (State.vanishReads_marksReads _ f).tracks) _ u
  have hmosaics : ∀ u : State, u.Tracks u.clearMosaics := fun u => by
    have hidle : u.Tracks (if u.engine.isSome then u.abandonSearch else u) := .ite u.abandonSearch_remosaics.tracks (.refl u)
    exact hidle.trans (.of_eq rfl rfl rfl)
  have hframes : ∀ u : State, u.Tracks
      { u with frames := u.frames.map Frame.cleared, views := .replicate 4 none, pool := .replicate 512 none } :=
    fun _ => .of_eq rfl rfl rfl
  have hrest : ∀ u : State, u.Tracks { u with
      reservations := u.reservations.map (fun r => { r with valid := false }), errors := []
      clients := u.clients.map NoticeClient.emptied } := fun _ => .of_eq rfl rfl rfl
  exact ((hcursors.keeps.trans (hsources _)).trans ((hslots _).trans ((hframes _).trans (hmosaics _))).keeps).trans
    (hrest _).keeps

theorem State.resetClient_tracks (s : State) (k : ClientId) : s.Tracks (s.resetClient k) := by
  have hcursor : ∀ (u : State) c, u.Tracks (u.resetCursor c) := fun u c =>
    (u.detachCursor_tracks c).trans (.ite (State.setHolder_tracks _ _ _) (State.abandonRead_tracks _ _))
  have hpins : ∀ u : State, u.Tracks { u with frames := u.frames.map (fun x : Frame => x.setPin k false) } :=
    fun _ => .of_eq rfl rfl rfl
  exact ((((hcursor s _).trans (hcursor _ _)).trans (hpins _)).trans (State.setReservation_tracks _ k _)).trans
    (State.setClient_tracks _ k _)

theorem State.clearMarks_tracks (l : List ErrorRecord) (s : State) : s.Tracks (l.foldl State.clearMark s) := by
  refine State.Tracks.foldl (fun s r => ?_) l s
  unfold State.clearMark
  split
  · exact .ite (s.modifyFrame_tracks _ _) (.refl s)
  · exact .refl s

/-- A read command begins on a cursor of an EXECUTING port that has none. -/
theorem State.startJob_jobsOk {s : State} {c : CursorId} (hport : (s.port (ownerOf c)).state = .executing)
    (hfree : s.Unserved (some (ownerOf c))) (h : s.jobsOk) (k : JobKind) : (s.startJob c k).jobsOk := by
  unfold State.startJob
  refine (State.runJob_tracks _ _ c).jobs fun d hd => ?_
  rw [State.modifyCursor_eq, State.cursor_setCursor] at hd
  by_cases hdc : d = c
  · subst hdc
    refine ⟨hport, fun d' ho hne => ?_⟩
    rw [State.modifyCursor_eq, State.cursor_setCursor, if_neg hne]
    exact hfree _ rfl d' ho
  · rw [if_neg hdc] at hd
    obtain ⟨hp, hother⟩ := h d hd
    refine ⟨hp, fun d' ho hne => ?_⟩
    have hd'c : d' ≠ c := fun e => ne_none_of_isSome hd (hfree _ rfl d (by rw [← e, ho]))
    rw [State.modifyCursor_eq, State.cursor_setCursor, if_neg hd'c]
    exact hother d' ho hne

theorem ownerOf_cursorOf (k : ClientId) (j : Fin 2) : ownerOf (cursorOf k j) = k := by
  revert k j
  decide

theorem State.readCommand_steps (s : State) (tag : Nat) (j : Fin 2) (allowed : Bool) (k : JobKind) :
    s.Steps (s.request n tag [.read] (fun u => u.readCommand n (cursorOf n j) allowed k)) := by
  refine s.request_steps_of_run n tag _ _ fun u hport => ?_
  have hanswer := fun st => u.answer_keeps n st []
  have hanswered : ∀ st, (∀ i, (u.source i).Goes ((u.answer n st []).source i))
      ∧ (u.Unserved (some n) → u.jobsOk → (u.answer n st []).jobsOk) := fun st => ⟨(hanswer st).sources, (hanswer st).jobs⟩
  unfold State.readCommand
  split
  · split
    · exact hanswered _
    · exact hanswered _
    · refine ⟨fun i => ?_, fun hfree hok => ?_⟩
      · exact ((State.runJob_tracks _ (u.modifyCursor (cursorOf n j) _) _).sources i).goes
      · exact State.startJob_jobsOk (by rw [ownerOf_cursorOf]; exact hport) (by rw [ownerOf_cursorOf]; exact hfree) hok k
  · exact hanswered _

end Taken

/-! ### Every command -/

theorem execReset_steps {s t : State} {c0 c1 c2} (h : exec (.reset c0 c1 c2) s = .next t) : s.Steps t := by
  cases h
  have hsource : ∀ i, (State.powerOn c0 c1 c2).source i = .powerOn := fun i => by simp [State.powerOn, State.source]
  refine ⟨fun i => ⟨fun _ => ?_, fun _ => (hsource i).symm ▸ Nat.zero_le 8⟩, fun _ c hc => ?_⟩
  · exact (hsource i).symm ▸ Source.ringOk_of_empty rfl rfl fun _ => rfl
  · have hclosed : ((State.powerOn c0 c1 c2).cursor c).job = none := by simp [State.powerOn, State.cursor]
    exact absurd hclosed (ne_none_of_isSome hc)

theorem execPortStartupDone_steps {s t : State} (h : exec (.portStartupDone) s = .next t) : s.Steps t := by
  cases h
  refine State.Tracks.steps (State.Tracks.foldl (fun s n => ?_) _ s)
  split
  · next hn => exact s.setPort_tracks n _ fun hx => absurd (hn.symm.trans hx) (by decide)
  · exact .refl s

theorem execClockSecond_steps {s t : State} (h : exec (.clockSecond) s = .next t) : s.Steps t := by
  cases h
  have hticked : s.Tracks { s with clock := s.clock.tick } := .of_eq rfl rfl rfl
  exact State.Keeps.steps (State.Keeps.ite (.ite ((hticked.trans (State.minuteCheck_tracks _)).keeps.trans (State.closeEvent_keeps _)) hticked.keeps)
    (.refl s))

theorem execFailedCheckRecord_steps {s t : State} {i cause}
    (h : exec (.failedCheckRecord i cause) s = .next t) : s.Steps t := by
  cases h
  exact State.Keeps.steps (State.Keeps.ite (s.modifySource_keeps i _ (.of_eq rfl rfl rfl rfl)) (s.failCheck_keeps i _))

theorem execLinePeriodExpiry_steps {s t : State} {i} (h : exec (.linePeriodExpiry i) s = .next t) : s.Steps t := by
  cases h
  split
  · split
    · next hs => exact State.Keeps.steps (State.missLine_keeps hs _ _ _)
    · exact State.Keeps.steps (State.Keeps.ite (s.modifySource_keeps i _ (.of_eq rfl rfl rfl rfl)) (.refl s))
  · exact (State.Keeps.refl s).steps

theorem execFadeExpiry_steps {s t : State} {i} (h : exec (.fadeExpiry i) s = .next t) : s.Steps t := by
  cases h
  split
  · next hs => exact State.Keeps.steps (s.modifySource_keeps i _ (Source.endStream_goes .lost (by rw [hs.1]; rfl)))
  · exact (State.Keeps.refl s).steps

theorem execHeadTake_steps {s t : State} (h : exec (.headTake) s = .next t) : s.Steps t := by
  cases h
  split
  · exact (State.Keeps.refl s).steps
  · exact State.Keeps.steps ((s.takeHead_keeps _).trans (State.closeEvent_keeps _))

theorem execWriteConfirmed_steps {s t : State} {n} (h : exec (.writeConfirmed n) s = .next t) : s.Steps t := by
  cases h
  split
  · exact (State.Keeps.refl s).steps
  · split
    · exact State.Tracks.steps (((s.storeRecord_tracks _).trans (State.reportOp_tracks _ n)).trans (State.landWrite_tracks _ _))
    · exact (State.Keeps.refl s).steps

theorem execWriteFailed_steps {s t : State} {n} (h : exec (.writeFailed n) s = .next t) : s.Steps t := by
  cases h
  split
  · exact (State.Keeps.refl s).steps
  · split
    · exact State.Keeps.steps (((s.reportOp_tracks n).keeps.trans (State.failWrite_keeps _ _ _)).trans (State.closeEvent_keeps _))
    · exact (State.Keeps.refl s).steps

theorem execCopyConfirmed_steps {s t : State} {n} (h : exec (.copyConfirmed n) s = .next t) : s.Steps t := by
  cases h
  split
  · exact (State.Keeps.refl s).steps
  · split
    · exact (State.Keeps.refl s).steps
    · exact State.Tracks.steps (((s.storeRecord_tracks _).trans (State.reportOp_tracks _ n)).trans (State.landCopy_tracks _ _ _))

theorem execCopyFailed_steps {s t : State} {n} (h : exec (.copyFailed n) s = .next t) : s.Steps t := by
  cases h
  split
  · exact (State.Keeps.refl s).steps
  · split
    · exact (State.Keeps.refl s).steps
    · exact State.Keeps.steps (((s.reportOp_tracks n).keeps.trans (State.failCopy_keeps _ _ _ _)).trans (State.closeEvent_keeps _))

theorem execCopyReadCorrupt_steps {s t : State} {n} (h : exec (.copyReadCorrupt n) s = .next t) : s.Steps t := by
  cases h
  split
  · exact (State.Keeps.refl s).steps
  · split
    · exact (State.Keeps.refl s).steps
    · exact State.Keeps.steps (((s.reportOp_tracks n).keeps.trans (State.corruptCopy_keeps _ _ _)).trans (State.closeEvent_keeps _))

theorem execConfirmationTimeout_steps {s t : State} {n} (h : exec (.confirmationTimeout n) s = .next t) : s.Steps t := by
  cases h
  split
  · exact (State.Keeps.refl s).steps
  · next o _ =>
    have hretired := ((s.rememberLate_tracks n (some o)).trans (State.retireOp_tracks _ n)).keeps (m := none)
    dsimp only
    split
    · exact State.Keeps.steps ((hretired.trans (State.failWrite_keeps _ _ _)).trans (State.closeEvent_keeps _))
    · exact State.Keeps.steps ((hretired.trans (State.failCopy_keeps _ _ _ _)).trans (State.closeEvent_keeps _))

theorem execLateReport_steps {s t : State} {n carried} (h : exec (.lateReport n carried) s = .next t) : s.Steps t := by
  cases h
  split
  · exact (State.Keeps.refl s).steps
  · split
    · exact State.Tracks.steps (s.answered_tracks n)
    · exact State.Tracks.steps (State.Tracks.ite ((s.storeRecord_tracks _).trans (State.answered_tracks _ n)) (s.answered_tracks n))

theorem execReadData_steps {s t : State} {k bytes} (h : exec (.readData k bytes) s = .next t) : s.Steps t := by
  cases h
  split
  · exact (State.Keeps.refl s).steps
  · split
    · exact (State.Keeps.refl s).steps
    · exact State.Keeps.steps (State.Keeps.ite (.refl s) (((s.answered_tracks _).keeps.trans (State.returnRead_keeps _ _ _ _)).trans
        (State.closeEvent_keeps _)))

theorem execReadTimeout_steps {s t : State} {k} (h : exec (.readTimeout k) s = .next t) : s.Steps t := by
  cases h
  split
  · exact (State.Keeps.refl s).steps
  · split
    · exact (State.Keeps.refl s).steps
    · exact State.Keeps.steps (((s.rememberLate_tracks _ _).keeps.trans (State.returnRead_keeps _ _ _ _)).trans (State.closeEvent_keeps _))

theorem execSeamJobTake_steps {s t : State} (h : exec (.seamJobTake) s = .next t) : s.Steps t := by
  cases h
  split
  · split
    · exact (State.Keeps.refl s).steps
    · have htaken : ∀ (q : List (GroupId × Nat)) (e : Option Search) (g : GroupId) (k : Nat) (f : Seam → Seam),
          s.Tracks (({ s with seamQueue := q, engine := e } : State).modifySeam g k f) := fun _ _ _ _ _ => .of_eq rfl rfl rfl
      exact State.Tracks.steps (((htaken _ _ _ _ _).trans (State.refillQueue_remosaics _).tracks).trans (State.carrySearch_tracks _))
  · exact (State.Keeps.refl s).steps
  · exact (State.Keeps.refl s).steps

theorem execRequestRefused_steps {s t : State} {n tag refusal}
    (h : exec (.requestRefused n tag refusal) s = .next t) : s.Steps t := by
  cases h
  have hrefused := fun hn => State.Steps.taken (s := s) (n := n) (tag := tag.getD 0) (run := fun u => u.answer n
    (match refusal with | .check => .check | .badRequest => .badRequest) []) hn fun u _ =>
      ⟨(u.answer_keeps n _ _).sources, (u.answer_keeps n _ _).jobs⟩
  split
  · exact (State.Keeps.refl s).steps
  · exact State.Tracks.steps (s.answerBusy_tracks n tag)
  · next hn => exact hrefused (.inl hn)
  · next hn => exact hrefused (.inr hn)

theorem execSetClock_steps {s t : State} {n tag second day weekday}
    (h : exec (.setClock n tag second day weekday) s = .next t) : s.Steps t := by
  cases h
  refine s.request_steps n tag _ _ fun u => ?_
  split
  · exact u.answer_keeps n _ _
  · have hset : ∀ c, u.Tracks { u with clock := c } := fun _ => .of_eq rfl rfl rfl
    exact .ite (u.answer_keeps n _ _) ((((hset _).trans (State.minuteCheck_tracks _)).answered _ _).trans (State.closeEvent_keeps _))

theorem execSourceConfig_steps {s t : State} {n tag a} (h : exec (.sourceConfig n tag a) s = .next t) : s.Steps t := by
  cases h
  refine s.request_steps n tag _ _ fun u => ?_
  split
  · exact u.answer_keeps n _ _
  · exact .ite ((u.modifySource_keeps _ _ (.of_eq rfl rfl rfl rfl)).trans (State.answer_keeps _ n _ _)) (u.answer_keeps n _ _)

theorem execStoreConfig_steps {s t : State} {n tag a} (h : exec (.storeConfig n tag a) s = .next t) : s.Steps t := by
  cases h
  refine s.request_steps n tag _ _ fun u => ?_
  have hset : ∀ c, u.Tracks { u with storeConfig := c } := fun _ => .of_eq rfl rfl rfl
  exact .ite ((hset _).answered _ _) (u.answer_keeps n _ _)

theorem execSourceStatus_steps {s t : State} {n tag i} (h : exec (.sourceStatus n tag i) s = .next t) : s.Steps t := by
  cases h
  refine s.request_steps n tag _ _ fun u => ?_
  split <;> exact u.answer_keeps n _ _

theorem execFrameInfo_steps {s t : State} {n tag f} (h : exec (.frameInfo n tag f) s = .next t) : s.Steps t := by
  cases h
  refine s.request_steps n tag _ _ fun u => ?_
  split <;> exact u.answer_keeps n _ _

theorem execScheduleRead_steps {s t : State} {n tag e} (h : exec (.scheduleRead n tag e) s = .next t) : s.Steps t := by
  cases h
  refine s.request_steps n tag _ _ fun u => ?_
  split <;> exact u.answer_keeps n _ _

theorem execMosaicInfo_steps {s t : State} {n tag g} (h : exec (.mosaicInfo n tag g) s = .next t) : s.Steps t := by
  cases h
  refine s.request_steps n tag _ _ fun u => ?_
  split <;> exact u.answer_keeps n _ _

theorem execPrepare_steps {s t : State} {n tag e given day}
    (h : exec (.prepare n tag e given day) s = .next t) : s.Steps t := by
  cases h
  refine s.request_steps n tag _ _ fun u => ?_
  have hprepared : ∀ e d day, u.Keeps (some n) (u.prepareFor n e d day) := fun e d day => by
    unfold State.prepareFor
    split
    · exact u.answer_keeps n _ _
    · split
      · exact u.answer_keeps n _ _
      · exact (u.modifyFrame_tracks _ _).answered _ _
  split
  · exact u.answer_keeps n _ _
  · refine .ite (u.answer_keeps n _ _) ?_
    split
    · exact u.answer_keeps n _ _
    · exact .ite (hprepared _ _ _) (.ite (hprepared _ _ _) (u.answer_keeps n _ _))

theorem execReserve_steps {s t : State} {n tag kind number}
    (h : exec (.reserve n tag kind number) s = .next t) : s.Steps t := by
  cases h
  refine s.request_steps n tag _ _ fun u => ?_
  split
  · exact u.answer_keeps n _ _
  · exact .ite (u.answer_keeps n _ _) ((u.setReservation_tracks n _).answered _ _)

theorem execScheduleWrite_steps {s t : State} {n tag e a} (h : exec (.scheduleWrite n tag e a) s = .next t) : s.Steps t := by
  cases h
  refine s.request_steps n tag _ _ fun u => ?_
  split
  · exact u.commit_keeps n _ _ fun v => .refl v
  · exact u.commit_keeps n _ _ fun v => v.writeEntry_keeps _ _

theorem execScheduleSuspend_steps {s t : State} {n tag e} (h : exec (.scheduleSuspend n tag e) s = .next t) : s.Steps t := by
  cases h
  refine s.request_steps n tag _ _ fun u => ?_
  split
  · exact u.commit_keeps n _ _ fun v => .refl v
  · exact u.commit_keeps n _ _ fun v => v.suspendEntry_keeps _

theorem execScheduleVacate_steps {s t : State} {n tag e} (h : exec (.scheduleVacate n tag e) s = .next t) : s.Steps t := by
  cases h
  refine s.request_steps n tag _ _ fun u => ?_
  split
  · exact u.commit_keeps n _ _ fun v => .refl v
  · exact u.commit_keeps n _ _ fun v => v.vacateEntry_keeps _

theorem execFrameAnnotate_steps {s t : State} {n tag f mark title}
    (h : exec (.frameAnnotate n tag f mark title) s = .next t) : s.Steps t := by
  cases h
  refine s.request_steps n tag _ _ fun u => ?_
  split
  · exact u.commit_keeps n _ _ fun v => .refl v
  · exact u.commit_keeps n _ _ fun v => v.annotate_keeps _ _ _

theorem execFrameRelease_steps {s t : State} {n tag f} (h : exec (.frameRelease n tag f) s = .next t) : s.Steps t := by
  cases h
  refine s.request_steps n tag _ _ fun u => ?_
  split
  · exact u.commit_keeps n _ _ fun v => .refl v
  · exact u.commit_keeps n _ _ fun v => v.release_keeps _

theorem execMosaicDefine_steps {s t : State} {n tag g l} (h : exec (.mosaicDefine n tag g l) s = .next t) : s.Steps t := by
  cases h
  refine s.request_steps n tag _ _ fun u => ?_
  split
  · exact u.commit_keeps n _ _ fun v => .refl v
  · exact u.commit_keeps n _ _ fun v => v.define_keeps _ _

theorem execMosaicDissolve_steps {s t : State} {n tag g} (h : exec (.mosaicDissolve n tag g) s = .next t) : s.Steps t := by
  cases h
  refine s.request_steps n tag _ _ fun u => ?_
  split
  · exact u.commit_keeps n _ _ fun v => .refl v
  · exact u.commit_keeps n _ _ fun v => v.dissolve_keeps _

theorem execPin_steps {s t : State} {n tag f} (h : exec (.pin n tag f) s = .next t) : s.Steps t := by
  cases h
  refine s.request_steps n tag _ _ fun u => ?_
  split
  · exact u.answer_keeps n _ _
  · exact .ite (u.answer_keeps n _ _) ((u.modifyFrame_tracks _ _).answered _ _)

theorem execUnpin_steps {s t : State} {n tag f} (h : exec (.unpin n tag f) s = .next t) : s.Steps t := by
  cases h
  refine s.request_steps n tag _ _ fun u => ?_
  split
  · exact u.answer_keeps n _ _
  · exact .ite (u.answer_keeps n _ _) ((u.modifyFrame_tracks _ _).answered _ _)

theorem execCursorOpen_steps {s t : State} {n tag a} (h : exec (.cursorOpen n tag a) s = .next t) : s.Steps t := by
  cases h
  refine s.request_steps n tag _ _ fun u => ?_
  dsimp only
  split
  · exact u.answer_keeps n _ _
  · exact u.answer_keeps n _ _
  · split
    · exact u.answer_keeps n _ _
    · exact (u.attachCursor_tracks _ _).answered _ _

theorem execCursorSet_steps {s t : State} {n tag a} (h : exec (.cursorSet n tag a) s = .next t) : s.Steps t := by
  cases h
  refine s.request_steps n tag _ _ fun u => ?_
  dsimp only
  split
  · exact u.answer_keeps n _ _
  · exact u.answer_keeps n _ _
  · split
    · exact u.answer_keeps n _ _
    · exact (u.storeCursor_tracks _ _ _).answered _ _

theorem execCursorClose_steps {s t : State} {n tag c} (h : exec (.cursorClose n tag c) s = .next t) : s.Steps t := by
  cases h
  refine s.request_steps n tag _ _ fun u => ?_
  dsimp only
  split
  · exact u.answer_keeps n _ _
  · exact (u.detachCursor_tracks _).answered _ _
  · exact (u.detachCursor_tracks _).answered _ _

theorem execReadMap_steps {s t : State} {n tag kind number first count}
    (h : exec (.readMap n tag kind number first count) s = .next t) : s.Steps t := by
  cases h
  refine s.request_steps n tag _ _ fun u => ?_
  split
  · exact u.answer_keeps n _ _
  · refine .ite ?_ (u.answer_keeps n _ _)
    split
    · exact u.answer_keeps n _ _
    · exact .ite (u.answer_keeps n _ _) (u.answer_keeps n _ _)

theorem execScan_steps {s t : State} {n tag c condition parameter limit}
    (h : exec (.scan n tag c condition parameter limit) s = .next t) : s.Steps t := by
  cases h
  refine s.request_steps n tag _ _ fun u => ?_
  dsimp only
  split
  · exact u.answer_keeps n _ _
  · refine .ite ?_ (u.answer_keeps n _ _)
    split
    · exact u.answer_keeps n _ _
    · exact u.answer_keeps n _ _
    · exact (u.modifyCursor_tracks _ _ id).answered _ _

theorem execNoticeSetLevels_steps {s t : State} {n tag l} (h : exec (.noticeSetLevels n tag l) s = .next t) : s.Steps t := by
  cases h
  exact s.request_steps n tag _ _ fun u => .ite ((u.setClient_tracks n _).answered _ _) (u.answer_keeps n _ _)

theorem execNoticeSetThreshold_steps {s t : State} {n tag k}
    (h : exec (.noticeSetThreshold n tag k) s = .next t) : s.Steps t := by
  cases h
  exact s.request_steps n tag _ _ fun u => .ite ((u.setClient_tracks n _).answered _ _) (u.answer_keeps n _ _)

theorem execNoticeAck_steps {s t : State} {n tag kind sort number given count}
    (h : exec (.noticeAck n tag kind sort number given count) s = .next t) : s.Steps t := by
  cases h
  refine s.request_steps n tag _ _ fun u => ?_
  split
  · exact u.answer_keeps n _ _
  · exact .ite (u.answer_keeps n _ _) ((u.setClient_tracks n _).answered _ _)

theorem execNoticeRaise_steps {s t : State} {n tag target code}
    (h : exec (.noticeRaise n tag target code) s = .next t) : s.Steps t := by
  cases h
  refine s.request_steps n tag _ _ fun u => ?_
  split
  · exact u.answer_keeps n _ _
  · exact .ite ((u.setClient_tracks _ _).answered _ _) (u.answer_keeps n _ _)

theorem execErrorsTake_steps {s t : State} {n tag k} (h : exec (.errorsTake n tag k) s = .next t) : s.Steps t := by
  cases h
  refine s.request_steps n tag _ _ fun u => ?_
  split
  · exact u.answer_keeps n _ _
  · have hset : ∀ l, u.Tracks { u with errors := l } := fun _ => .of_eq rfl rfl rfl
    exact ((hset _).trans (State.clearMarks_tracks _ _)).answered _ _

theorem execStoreClear_steps {s t : State} {n tag} (h : exec (.storeClear n tag) s = .next t) : s.Steps t := by
  cases h
  exact s.request_steps n tag _ _ fun u => (u.clearStore_keeps.trans (State.answer_keeps _ n _ _)).trans (State.closeEvent_keeps _)

/-- A record comes to its source, and is heard as `take` says. -/
theorem State.steps_of_record {s t : State} {i : SourceId} {take : State → State} (htake : ∀ u : State, u.Keeps none (take u))
    {o : Host.Outcome State Fault Refusal} (ho : o = .next (s.record i take)) (h : o = .next t) : s.Steps t := by
  rw [ho] at h
  have ht : s.record i take = t := by injection h
  exact ht ▸ (s.record_keeps i take htake).steps

theorem exec_steps {c : Instr} {s t : State} (h : exec c s = .next t) : s.Steps t := by
  cases c with
  | reset _ _ _ => exact execReset_steps h
  | portStartupDone => exact execPortStartupDone_steps h
  | clockSecond => exact execClockSecond_steps h
  | start i f d r => exact State.steps_of_record (fun u => u.takeStart_keeps i _) rfl h
  | phase i q p => exact State.steps_of_record (fun u => u.modifySource_keeps i _ (Source.takePhase_goes _ p)) rfl h
  | image i q k w p => exact State.steps_of_record (fun u => u.takeImage_keeps i q k w p) rfl h
  | stop i => exact State.steps_of_record (fun u => u.modifySource_keeps i _ (Source.takeStop_goes _)) rfl h
  | drop i => exact State.steps_of_record (fun u => u.takeDrop_keeps i) rfl h
  | resume i => exact State.steps_of_record (fun u => u.modifySource_keeps i _ (Source.takeResume_goes _)) rfl h
  | idle i => exact State.steps_of_record (fun u => .refl u) rfl h
  | failedCheckRecord _ _ => exact execFailedCheckRecord_steps h
  | linkSilenceExpiry i => cases h; exact State.Keeps.steps (State.Keeps.ite (s.loseLink_keeps i 1) (.refl s))
  | linePeriodExpiry _ => exact execLinePeriodExpiry_steps h
  | fadeExpiry _ => exact execFadeExpiry_steps h
  | headTake => exact execHeadTake_steps h
  | settleExpiry f => cases h; exact State.Tracks.steps (State.Tracks.ite (s.settle_tracks f) (.refl s))
  | arbiterGrant => cases h; exact s.grant_tracks.steps
  | writeConfirmed _ => exact execWriteConfirmed_steps h
  | writeFailed _ => exact execWriteFailed_steps h
  | copyConfirmed _ => exact execCopyConfirmed_steps h
  | copyFailed _ => exact execCopyFailed_steps h
  | copyReadCorrupt _ => exact execCopyReadCorrupt_steps h
  | confirmationTimeout _ => exact execConfirmationTimeout_steps h
  | lateReport _ _ => exact execLateReport_steps h
  | readData _ _ => exact execReadData_steps h
  | readTimeout _ => exact execReadTimeout_steps h
  | seamJobTake => exact execSeamJobTake_steps h
  | requestWhileBusy n tag => cases h; exact State.Tracks.steps (State.Tracks.ite (s.answerBusy_tracks n tag) (.refl s))
  | requestRefused _ _ _ => exact execRequestRefused_steps h
  | responseRead n => cases h; exact State.Tracks.steps (s.setPort_tracks n _ id)
  | getInfo n tag => cases h; exact s.request_steps n tag _ _ fun u => u.answer_keeps n _ _
  | setClock _ _ _ _ _ => exact execSetClock_steps h
  | getClock n tag => cases h; exact s.request_steps n tag _ _ fun u => .ite (u.answer_keeps n _ _) (u.answer_keeps n _ _)
  | sourceConfig _ _ _ => exact execSourceConfig_steps h
  | storeConfig _ _ _ => exact execStoreConfig_steps h
  | sourceStatus _ _ _ => exact execSourceStatus_steps h
  | frameList n tag => cases h; exact s.request_steps n tag _ _ fun u => u.answer_keeps n _ _
  | frameInfo _ _ _ => exact execFrameInfo_steps h
  | scheduleRead _ _ _ => exact execScheduleRead_steps h
  | mosaicInfo _ _ _ => exact execMosaicInfo_steps h
  | prepare _ _ _ _ _ => exact execPrepare_steps h
  | reserve _ _ _ _ => exact execReserve_steps h
  | scheduleWrite _ _ _ _ => exact execScheduleWrite_steps h
  | scheduleSuspend _ _ _ => exact execScheduleSuspend_steps h
  | scheduleVacate _ _ _ => exact execScheduleVacate_steps h
  | frameAnnotate _ _ _ _ _ => exact execFrameAnnotate_steps h
  | frameRelease _ _ _ => exact execFrameRelease_steps h
  | mosaicDefine _ _ _ _ => exact execMosaicDefine_steps h
  | mosaicDissolve _ _ _ => exact execMosaicDissolve_steps h
  | pin _ _ _ => exact execPin_steps h
  | unpin _ _ _ => exact execUnpin_steps h
  | cursorOpen _ _ _ => exact execCursorOpen_steps h
  | cursorSet _ _ _ => exact execCursorSet_steps h
  | cursorClose _ _ _ => exact execCursorClose_steps h
  | readNext n tag c count => cases h; exact s.readCommand_steps tag c _ _
  | readAt n tag c offset => cases h; exact s.readCommand_steps tag c _ _
  | readMap _ _ _ _ _ _ => exact execReadMap_steps h
  | scan _ _ _ _ _ _ => exact execScan_steps h
  | noticeSetLevels _ _ _ => exact execNoticeSetLevels_steps h
  | noticeSetThreshold _ _ _ => exact execNoticeSetThreshold_steps h
  | noticeSummary n tag k => cases h; exact s.request_steps n tag _ _ fun u => .ite (u.answer_keeps n _ _) (u.answer_keeps n _ _)
  | noticeAck _ _ _ _ _ _ _ => exact execNoticeAck_steps h
  | noticeRaise _ _ _ _ => exact execNoticeRaise_steps h
  | errorsPeek n tag count => cases h; exact s.request_steps n tag _ _ fun u => .ite (u.answer_keeps n _ _) (u.answer_keeps n _ _)
  | errorsTake _ _ _ => exact execErrorsTake_steps h
  | storeClear _ _ => exact execStoreClear_steps h
  | portReset n tag => cases h; exact s.request_steps n tag _ _ fun u => (u.resetClient_tracks n).answered _ _
  | frameWrittenWhileStarting n => cases h; exact (State.Keeps.refl s).steps

theorem step_steps {s t : State} (h : step s = .next t) : s.Steps t := by
  unfold step at h
  split at h
  · cases h; exact (State.Keeps.refl s).steps
  · next c rest _ =>
    have hrest : s.Tracks { s with pending := rest } := .of_eq rfl rfl rfl
    have hexec := exec_steps h
    exact ⟨fun i => (hrest.sources i).goes.trans (hexec.sources i), fun hs => hexec.jobs (hrest.jobs hs)⟩

/-- Settles O58: every command changes a source by moves that keep its ring right and its rejections within 8. -/
theorem stepsKeepTheRings : Obligations.StepsKeepTheRings :=
  ⟨fun _ _ hok h i => ((step_steps h).sources i).ring (hok i), fun _ _ hle h i => ((step_steps h).sources i).rejections (hle i)⟩

end Sys2Proof.Machine
end

section
/-! SUPPORT. Every step leaves nothing that only waits for its end (log 12). -/

namespace Sys2Proof.Machine

/-! ### What brings nothing to wait -/

section Rest
variable {s t u : State} {n : ClientId}

theorem State.RestKept.ite {p : Prop} [Decidable p] (h : s.RestKept t) (k : s.RestKept u) : s.RestKept (if p then t else u) := by
  split
  · exact h
  · exact k

theorem State.RestKept.iteThen {p : Prop} [Decidable p] {g : State → State} (h : s.RestKept t) (hg : ∀ v : State, v.RestKept (g v)) :
    s.RestKept (if p then g t else t) := .ite (h.trans (hg t)) h

/-- Where `s` leaves nothing waiting, so does `t`. -/
def State.KeepsRest (s t : State) : Prop := s.atRest → t.atRest

theorem State.KeepsRest.refl (s : State) : s.KeepsRest s := id
theorem State.KeepsRest.trans (h : s.KeepsRest t) (k : t.KeepsRest u) : s.KeepsRest u := k ∘ h
theorem State.RestKept.keepsRest (h : s.RestKept t) : s.KeepsRest t := h.atRest
theorem State.RestKept.answered (h : s.RestKept t) (st : Status) (b : List Byte) : s.KeepsRest (t.answer n st b) :=
  (h.trans (t.answer_restKept n st b)).atRest
theorem State.answer_keepsRest (s : State) (st : Status) (b : List Byte) : s.KeepsRest (s.answer n st b) :=
  (State.RestKept.refl s).answered st b

/-- An event that ends with what its end does. -/
theorem State.closeEvent_keepsRest (s t : State) : s.KeepsRest t.closeEvent := fun _ => t.closeEvent_atRest

theorem State.KeepsRest.ite {p : Prop} [Decidable p] (h : s.KeepsRest t) (k : s.KeepsRest u) :
    s.KeepsRest (if p then t else u) := by
  split
  · exact h
  · exact k

/-- A change to the sources that leaves state, held START and binding of each. -/
theorem State.mapSources_restKept (s : State) {g : Source → Source}
    (h : ∀ x, (g x).state = x.state ∧ (g x).held = x.held ∧ (g x).binding = x.binding) :
    s.RestKept { s with sources := s.sources.map g } :=
  ⟨fun i => .inr (by simpa [State.source] using h (s.source i)), .inl rfl, fun k => by cases k <;> rfl, fun _ hc => ⟨hc, rfl⟩⟩

theorem State.readyWaiting_restKept (s : State) : s.RestKept s.readyWaiting :=
  s.mapSources_restKept fun x => by split <;> exact ⟨rfl, rfl, rfl⟩

theorem State.readyStalled_restKept (s : State) (f : FrameId) (r : Nat) : s.RestKept (s.readyStalled f r) :=
  s.mapSources_restKept fun x => by split <;> exact ⟨rfl, rfl, rfl⟩

/-- A read changes in its holder. -/
theorem State.modifyHolder_restKept (s : State) (h : ReadHolder) (g : ReadRequest → ReadRequest) :
    s.RestKept (s.modifyHolder h g) := by
  refine ⟨fun _ => .inr ?_, .inl ?_, fun k => ?_, fun c hc => ?_⟩
  · cases h <;> exact ⟨rfl, rfl, rfl⟩
  · cases h <;> rfl
  · rw [State.modifyHolder, State.holder_setHolder]
    split
    · next hk => rw [hk, Option.isSome_map]
    · rfl
  · cases h <;> exact ⟨hc, rfl⟩

/-- A cursor keeps its place with the command it has, or closes. -/
theorem State.setCursor_restKept {c : CursorId} {x : Cursor}
    (h : x.openFields.isSome = true → (s.cursor c).openFields.isSome = true ∧ x.job = (s.cursor c).job) :
    s.RestKept (s.setCursor c x) := by
  refine ⟨fun _ => .inr ⟨rfl, rfl, rfl⟩, .inl rfl, fun k => by cases k <;> rfl, fun d hd => ?_⟩
  rw [State.cursor_setCursor] at hd ⊢
  split
  · next e => subst e; rw [if_pos rfl] at hd; exact h hd
  · next e => rw [if_neg e] at hd; exact ⟨hd, rfl⟩

theorem State.modifyCursor_restKept (s : State) {c : CursorId} (g : Cursor → Cursor)
    (h : (g (s.cursor c)).openFields.isSome = true →
      (s.cursor c).openFields.isSome = true ∧ (g (s.cursor c)).job = (s.cursor c).job) : s.RestKept (s.modifyCursor c g) :=
  State.setCursor_restKept h

theorem State.modifySource_restKept (s : State) (i : SourceId) (g : Source → Source)
    (h : (g (s.source i)).state ≠ .idle ∨ (g (s.source i)).state = (s.source i).state
      ∧ (g (s.source i)).held = (s.source i).held ∧ (g (s.source i)).binding = (s.source i).binding) :
    s.RestKept (s.modifySource i g) := .setSource h

theorem State.setClient_restKept (s : State) (k : ClientId) (x : NoticeClient) : s.RestKept (s.setClient k x) :=
  .of_eq rfl rfl rfl rfl rfl

theorem State.setReservation_restKept (s : State) (k : ClientId) (x : Reservation) : s.RestKept (s.setReservation k x) :=
  .of_eq rfl rfl rfl rfl rfl

/-- A cursor without a command waits for nothing. -/
theorem State.setCursor_keepsRest {c : CursorId} {x : Cursor} (h : x.job = none) : s.KeepsRest (s.setCursor c x) := by
  rintro ⟨hsources, hengine, hcursors⟩
  refine ⟨hsources, hengine, fun d hd j hj => ?_⟩
  rw [State.cursor_setCursor] at hd hj
  split at hd
  · next e => rw [if_pos e, h] at hj; cases hj
  · next e => rw [if_neg e] at hj; exact hcursors d hd j hj

/-! ### The controller and the placement engine -/

theorem State.setRow_restKept (s : State) (f : FrameId) (r : Nat) (e : RowEntry) : s.RestKept (s.setRow f r e) := by
  unfold State.setRow
  split
  · exact .refl s
  · exact s.setFrame_restKept f _

theorem State.storeRecord_restKept (s : State) (o : WriteOp) : s.RestKept (s.storeRecord o) := by
  unfold State.storeRecord
  split <;> exact .of_eq rfl rfl rfl rfl rfl

theorem State.answered_restKept (s : State) (k : Nat) : s.RestKept (s.answered k) := .of_eq rfl rfl rfl rfl rfl

theorem State.reportOp_restKept (s : State) (k : Nat) : s.RestKept (s.reportOp k) :=
  State.RestKept.trans (t := { s.answered k with writeQueue := s.writeQueue.filter (fun o => o.issued != some k) })
    (.of_eq rfl rfl rfl rfl rfl) (State.readyWaiting_restKept _)

theorem State.landRow_restKept (s : State) (f : FrameId) (r : Nat) (g : RowEntry → RowEntry) : s.RestKept (s.landRow f r g) := by
  unfold State.landRow
  split
  · exact .refl s
  · exact (s.setRow_restKept f r _).trans (State.readyStalled_restKept _ f r)

theorem State.landWrite_restKept (s : State) (o : WriteOp) : s.RestKept (s.landWrite o) :=
  .ite (s.landRow_restKept _ _ _) (s.landRow_restKept _ _ _)

theorem State.landCopy_restKept (s : State) (o : WriteOp) (p : PoolRow) : s.RestKept (s.landCopy o p) :=
  .ite (s.landRow_restKept _ _ _) (s.landRow_restKept _ _ _)

theorem State.grant_restKept (s : State) : s.RestKept s.grant := by
  have hissue : ∀ h, s.RestKept (s.issueRead h) := fun h =>
    (s.modifyHolder_restKept h fun r => { r with issued := some s.issueCount }).trans (.of_eq rfl rfl rfl rfl rfl)
  unfold State.grant
  split
  · exact .of_eq rfl rfl rfl rfl rfl
  · split
    · exact (hissue _).trans (.of_eq rfl rfl rfl rfl rfl)
    · exact .ite (hissue _) (.refl s)

/-! ### Links and frames -/

theorem State.enterFaded_restKept (s : State) (i : SourceId) (byMisses : Bool) : s.RestKept (s.enterFaded i byMisses) :=
  State.RestKept.trans (.setSource (.inl (show SourceState.faded ≠ .idle by decide))) (State.raise_restKept _ _ _)

theorem State.missLine_restKept (s : State) (i : SourceId) (b : StreamBinding) (first expected : Nat) :
    s.RestKept (s.missLine i b first expected) := by
  have hmarked : s.RestKept (s.markMissed b first expected) := by
    unfold State.markMissed
    split
    · exact .refl s
    · split
      · exact .refl s
      · exact .ite (s.setRow_restKept _ _ _) (.refl s)
  have hmissed : s.RestKept ((s.markMissed b first expected).modifySource i (fun x => { x with
      expectedSeq := some (nextSeq expected), misses := stickyNext 255 x.misses
      linePeriodTimer := some (periodMs b.geometry.rate) })) := hmarked.trans (.setSource (.inr ⟨rfl, rfl, rfl⟩))
  exact .iteThen (.iteThen hmissed fun v => v.raise_restKept (.source i) (.gap b.frame expected)) fun v => v.enterFaded_restKept i true

theorem State.loseLink_restKept (s : State) (i : SourceId) (detail : Nat) : s.RestKept (s.loseLink i detail) :=
  State.RestKept.trans (.setSource (.inl (show SourceState.linkDown ≠ .idle by decide))) (State.logError_restKept _ _)

theorem State.failCheck_restKept (s : State) (i : SourceId) (detail : Nat) : s.RestKept (s.failCheck i detail) := by
  have hcounted : s.RestKept (s.modifySource i (fun x => { x with checkFailures := stickyNext 4 x.checkFailures })) :=
    .setSource (.inr ⟨rfl, rfl, rfl⟩)
  exact .iteThen (hcounted.trans (State.logError_restKept _ _)) fun v => v.loseLink_restKept i 2

theorem State.settle_restKept (s : State) (f : FrameId) : s.RestKept (s.settle f) := by
  unfold State.settle
  refine State.RestKept.trans (.iteThen ?_ fun v => v.raise_restKept _ _) (State.setFrame_restKept _ f _)
  refine State.RestKept.trans ?_ (State.tellSettled_remosaics _ f).restKept
  exact .iteThen (s.setFrame_restKept f _) fun v => (v.releaseView_releases f .viewReleased).restKept

theorem State.loseCursors_restKept (s : State) (p : Cursor → Bool) (cause : LostCause) : s.RestKept (s.loseCursors p cause) := by
  have hloses := s.loseCursors_loses p cause
  exact hloses.toCursorsLost.restKept (by rw [hloses.only]) (by rw [hloses.only])

theorem State.dissolveGroup_restKept (s : State) (g : GroupId) : s.RestKept (s.dissolveGroup g) := by
  have hidle : s.Remosaics (if s.engine.any (fun x => x.group == g) then s.abandonSearch else s) :=
    .ite s.abandonSearch_remosaics (.refl s)
  have hset : ∀ (v : State) x, v.RestKept (v.setGroup g x) := fun _ _ => .of_eq rfl rfl rfl rfl rfl
  unfold State.dissolveGroup
  refine State.RestKept.trans ?_ (State.refillQueue_remosaics _).restKept
  refine State.RestKept.trans (State.RestKept.trans ?_ (State.loseCursors_restKept _ _ _)) (hset _ _)
  refine State.RestKept.trans ?_ (State.Remosaics.foldl (fun s f => s.clearMembership_remosaics g f) _ _).restKept
  exact (hidle.trans (State.setSeamQueue_remosaics _ _)).restKept

/-! ### Cursors -/

theorem State.detachPrevious_restKept (s : State) (f : FrameId) : s.RestKept (s.detachPrevious f) := by
  have hview : ∀ v g, s.RestKept (s.modifyView v g) := fun _ _ => .of_eq rfl rfl rfl rfl rfl
  unfold State.detachPrevious
  split
  · exact .refl s
  · exact .ite (((hview _ _).trans (State.releaseView_releases _ f _).restKept).trans (State.setFrame_restKept _ f _)) (hview _ _)

/-- What a detach leaves of its cursor and its command. -/
theorem State.detachCursor_closes (s : State) (c : CursorId) :
    s.RestKept (s.detachCursor c) ∧ ((s.detachCursor c).cursor c).openFields = none := by
  have hclosed : ∀ v : State, v.RestKept (v.modifyCursor c (fun x => { x with slot := .closed }))
      ∧ ((v.modifyCursor c (fun x => { x with slot := .closed })).cursor c).openFields = none := fun v =>
    ⟨v.modifyCursor_restKept _ fun h => (by cases h), congrArg Cursor.openFields (State.cursor_setCursor_self v c _)⟩
  unfold State.detachCursor
  split
  · exact hclosed s
  · have hunpinned : s.RestKept (s.unpinCursor c) := .of_eq rfl rfl rfl rfl rfl
    obtain ⟨hkept, hnone⟩ := hclosed (s.unpinCursor c)
    dsimp only
    split
    · next f _ =>
      have hdetached := State.detachPrevious_restKept ((s.unpinCursor c).modifyCursor c fun x => { x with slot := .closed }) f
      refine ⟨(hunpinned.trans hkept).trans hdetached, ?_⟩
      by_contra hopen
      obtain ⟨hwas, -⟩ := hdetached.cursors c (Option.isSome_iff_ne_none.mpr hopen)
      rw [hnone] at hwas
      cases hwas
    · exact ⟨hunpinned.trans hkept, hnone⟩
    · exact ⟨hunpinned.trans hkept, hnone⟩

theorem State.pinCursor_restKept (s : State) (c : CursorId) (a : Attachment) : s.RestKept (s.pinCursor c a) :=
  .foldl (fun s f => s.setFrame_restKept f _) _ s

theorem State.attachCursor_keepsRest (s : State) (c : CursorId) (k : CursorFields) : s.KeepsRest (s.attachCursor c k) := by
  have hattached : ∀ f, s.RestKept (s.attachPrevious f) := fun f => by
    unfold State.attachPrevious
    split
    · exact .refl s
    · exact .of_eq rfl rfl rfl rfl rfl
  unfold State.attachCursor
  refine State.KeepsRest.trans (State.RestKept.iteThen ?_ fun v => v.pinCursor_restKept c _).keepsRest (State.setCursor_keepsRest rfl)
  split
  · exact hattached _
  · exact .refl s
  · exact .refl s

theorem State.storeCursor_keepsRest {c : CursorId} {old : CursorFields} (h : (s.cursor c).slot = .opened old) (new : CursorFields) :
    s.KeepsRest (s.storeCursor c old new) := by
  have hunpinned : s.RestKept (s.unpinCursor c) := .of_eq rfl rfl rfl rfl rfl
  have hopen : (s.cursor c).openFields.isSome = true := by rw [Cursor.openFields, h]; rfl
  have hcursor : ∀ (l : List FrameId) (v : State) (g : FrameId → Frame → Frame),
      (l.foldl (fun s f => s.modifyFrame f (g f)) v).cursor c = v.cursor c := fun l v g => by
    induction l generalizing v with
    | nil => rfl
    | cons f l ih => exact ih _
  have hstored : ∀ v : State, s.RestKept v → v.cursor c = s.cursor c →
      s.KeepsRest (v.modifyCursor c fun x => { x with slot := .opened new }) := fun v hv hc =>
    (hv.trans (v.modifyCursor_restKept _ fun _ => ⟨by rw [hc]; exact hopen, rfl⟩)).keepsRest
  unfold State.storeCursor
  refine .ite ((s.detachCursor_closes c).1.keepsRest.trans (State.attachCursor_keepsRest _ c new)) (hstored _ ?_ ?_)
  · exact .ite (.refl s) (.ite (s.pinCursor_restKept c _) hunpinned)
  · split
    · rfl
    · split
      · exact hcursor _ s fun _ x => x.setRetain c true
      · rfl

theorem State.resetCursor_keepsRest (s : State) (c : CursorId) : s.KeepsRest (s.resetCursor c) := by
  obtain ⟨hkept, hclosed⟩ := s.detachCursor_closes c
  unfold State.resetCursor
  refine hkept.keepsRest.trans (.ite (fun r => ?_) (State.modifyHolder_restKept _ _ _).keepsRest)
  obtain ⟨hsources, hengine, hcursors⟩ := r
  refine ⟨hsources, hengine, fun d hd j hj hp => ?_⟩
  by_cases hdc : d = c
  · exact absurd hclosed (Option.isSome_iff_ne_none.mp (hdc ▸ hd))
  · rw [State.holder_setHolder, if_neg fun e => hdc (ReadHolder.cursor.inj e)]
    exact hcursors d hd j hj hp

theorem State.resetClient_keepsRest (s : State) (k : ClientId) : s.KeepsRest (s.resetClient k) := by
  have hrest : ∀ v : State, v.RestKept ((({ v with frames := v.frames.map (fun x : Frame => x.setPin k false) } : State).expireReservation
      k).setClient k (v.client k).emptied) := fun _ => .of_eq rfl rfl rfl rfl rfl
  exact ((s.resetCursor_keepsRest _).trans (State.resetCursor_keepsRest _ _)).trans (hrest _).keepsRest

/-- A read command goes on to its first read or its answer (R144). -/
theorem State.startJob_keepsRest (s : State) (c : CursorId) (k : JobKind) : s.KeepsRest (s.startJob c k) := by
  intro r
  obtain ⟨hsources, hengine, hretakes⟩ := s.atRest_iff.mp r
  unfold State.startJob
  have hruns := (s.setCursor_runsJob c { s.cursor c with job := some { kind := k, items := [], phase := .retake } }).trans
    (State.runJob_runsJob (k.rows + 1) _ c)
  have hdone : ¬ ((s.modifyCursor c (fun x => { x with job := some { kind := k, items := [], phase := .retake } })).runJob
      (k.rows + 1) c).Retakes c := State.runJob_not_retakes _ fun j hj => by
    rw [State.modifyCursor_eq, State.cursor_setCursor_self] at hj
    cases hj
    exact Nat.lt_succ_self k.rows
  refine (State.atRest_iff _).mpr ⟨fun i => ?_, ?_, fun d => ?_⟩
  · have hsource : ((s.modifyCursor c (fun x => { x with job := some { kind := k, items := [], phase := .retake } })).runJob
        (k.rows + 1) c).source i = s.source i := congrArg (fun v : Vector Source 3 => v[i.val]) hruns.sources
    rw [hsource]
    exact hsources i
  · unfold State.SearchRests
    rw [State.modifyCursor_eq, hruns.engine, hruns.seam]
    exact hengine
  · by_cases hdc : d = c
    · exact hdc ▸ hdone
    · exact fun h => hretakes d ((hruns.retakes hdc).mp h)

theorem State.readCommand_keepsRest (s : State) (c : CursorId) (allowed : Bool) (k : JobKind) :
    s.KeepsRest (s.readCommand n c allowed k) := by
  unfold State.readCommand
  refine .ite ?_ (s.answer_keepsRest _ _)
  split
  · exact s.answer_keepsRest _ _
  · exact s.answer_keepsRest _ _
  · exact s.startJob_keepsRest c k

/-! ### Commands and commits at their port -/

theorem State.setPort_restKept (s : State) (n : ClientId) (x : Port) : s.RestKept (s.setPort n x) := .of_eq rfl rfl rfl rfl rfl

theorem State.answerBusy_restKept (s : State) (n : ClientId) (tag : Option Nat) : s.RestKept (s.answerBusy n tag) := by
  cases tag <;> exact .of_eq rfl rfl rfl rfl rfl

theorem State.request_keepsRest (s : State) (n : ClientId) (tag : Nat) (classes : List CommandClass) {run : State → State}
    (h : ∀ u : State, u.KeepsRest (run u)) : s.KeepsRest (s.request n tag classes run) := by
  have hbegun := s.beginCommand_restKept n tag
  have htaken : s.KeepsRest (if (s.port n).holds classes then run (s.beginCommand n tag)
      else (s.beginCommand n tag).answer n .denied []) := .ite (hbegun.keepsRest.trans (h _)) (hbegun.answered _ _)
  unfold State.request
  split
  · exact .refl s
  · exact (s.answerBusy_restKept n _).keepsRest
  · exact htaken
  · exact htaken

theorem State.commit_keepsRest (s : State) (target : Option Target) {run : State → State} (h : ∀ u : State, u.KeepsRest (run u)) :
    s.KeepsRest (s.commit n target run) := by
  have hexpired : s.RestKept (s.expireReservation n) := .of_eq rfl rfl rfl rfl rfl
  unfold State.commit
  dsimp only
  split
  · exact hexpired.answered _ _
  · exact .ite (hexpired.answered _ _) (.ite (hexpired.answered _ _) (.ite (hexpired.answered _ _)
      (hexpired.keepsRest.trans (h _))))

theorem State.committed_keepsRest (s : State) (x : Target) : s.KeepsRest (s.committed n x) := s.answer_keepsRest _ _

theorem State.changeEntry_restKept (s : State) (e : EntryId) (d : Option (EntryMode × EntryFields)) (op : ScheduleOp) :
    s.RestKept (s.changeEntry n e d op) :=
  State.RestKept.trans (t := s.setEntry e { definition := d, writer := some n, stamp := next16 (s.entryAt e).stamp })
    (.of_eq rfl rfl rfl rfl rfl) (State.raise_restKept _ _ _)

theorem State.writeEntry_keepsRest (s : State) (e : EntryId) (a : EntryArgs) : s.KeepsRest (s.writeEntry n e a) := by
  unfold State.writeEntry
  split
  · exact s.answer_keepsRest _ _
  · exact .ite (.ite (s.answer_keepsRest _ _) ((s.changeEntry_restKept e _ _).keepsRest.trans (State.committed_keepsRest _ _)))
      (s.answer_keepsRest _ _)

theorem State.suspendEntry_keepsRest (s : State) (e : EntryId) : s.KeepsRest (s.suspendEntry n e) := by
  unfold State.suspendEntry
  split
  · exact s.answer_keepsRest _ _
  · exact (s.changeEntry_restKept e _ _).keepsRest.trans (State.committed_keepsRest _ _)

theorem State.vacateEntry_keepsRest (s : State) (e : EntryId) : s.KeepsRest (s.vacateEntry n e) := by
  have hdropped : ∀ (v : State) x, v.RestKept (v.dropReservations x) := fun _ _ => .of_eq rfl rfl rfl rfl rfl
  exact .ite (s.answer_keepsRest _ _) (.ite (s.answer_keepsRest _ _)
    (((s.changeEntry_restKept e _ _).trans (hdropped _ _)).keepsRest.trans (State.committed_keepsRest _ _)))

theorem State.annotate_keepsRest (s : State) (f : FrameId) (k : Nat) (title : List Byte) :
    s.KeepsRest (s.annotate n f k title) :=
  .ite ((s.setFrame_restKept f _).keepsRest.trans (State.committed_keepsRest _ _)) (s.answer_keepsRest _ _)

theorem State.release_keepsRest (s : State) (f : FrameId) : s.KeepsRest (s.release n f) :=
  .ite (s.answer_keepsRest _ _) (.ite (s.answer_keepsRest _ _) (State.closeEvent_keepsRest _ _))

theorem State.define_keepsRest (s : State) (g : GroupId) (l : List (Nat × Nat)) : s.KeepsRest (s.define n g l) := by
  unfold State.define
  refine .ite (s.answer_keepsRest _ _) ?_
  split
  · exact s.answer_keepsRest _ _
  · split
    · exact s.answer_keepsRest _ _
    · exact (s.defineGroup_remosaics g _ _).restKept.keepsRest.trans (State.committed_keepsRest _ _)

theorem State.dissolve_keepsRest (s : State) (g : GroupId) : s.KeepsRest (s.dissolve n g) := by
  have hdropped : ∀ (v : State) x, v.RestKept (v.dropReservations x) := fun _ _ => .of_eq rfl rfl rfl rfl rfl
  exact .ite (s.answer_keepsRest _ _)
    (((s.dissolveGroup_restKept g).trans (hdropped _ _)).keepsRest.trans (State.committed_keepsRest _ _))

theorem State.clearMarks_restKept (l : List ErrorRecord) (s : State) : s.RestKept (l.foldl State.clearMark s) := by
  refine State.RestKept.foldl (fun s r => ?_) l s
  unfold State.clearMark
  split
  · exact .ite (s.setFrame_restKept _ _) (.refl s)
  · exact .refl s

end Rest

/-! ### Every command -/

theorem execReset_keepsRest {s t : State} {c0 c1 c2} (h : exec (.reset c0 c1 c2) s = .next t) : s.KeepsRest t := by
  cases h
  have hreset : State.reset.RestKept { State.powerOn c0 c1 c2 with
      powerOns := s.powerOns + 1, freeDraws := s.freeDraws, pending := s.pending } := .of_eq rfl rfl rfl rfl rfl
  exact fun _ => hreset.atRest State.reset_atRest

theorem execPortStartupDone_keepsRest {s t : State} (h : exec (.portStartupDone) s = .next t) : s.KeepsRest t := by
  cases h
  refine (State.RestKept.foldl (fun s n => ?_) _ s).keepsRest
  split
  · exact s.setPort_restKept n _
  · exact .refl s

theorem execClockSecond_keepsRest {s t : State} (h : exec (.clockSecond) s = .next t) : s.KeepsRest t := by
  cases h
  have hticked : s.RestKept { s with clock := s.clock.tick } := .of_eq rfl rfl rfl rfl rfl
  split
  · dsimp only
    split
    · exact State.closeEvent_keepsRest _ _
    · exact hticked.keepsRest
  · exact .refl s

/-- A record ends with what its end does. -/
theorem State.keepsRest_of_record {s t : State} {i : SourceId} {take : State → State} {o : Host.Outcome State Fault Refusal}
    (ho : o = .next (s.record i take)) (h : o = .next t) : s.KeepsRest t := by
  rw [ho] at h
  have ht : s.record i take = t := by injection h
  exact ht ▸ State.closeEvent_keepsRest _ _

theorem execFailedCheckRecord_keepsRest {s t : State} {i cause}
    (h : exec (.failedCheckRecord i cause) s = .next t) : s.KeepsRest t := by
  cases h
  exact (State.RestKept.ite (s.modifySource_restKept i _ (.inr ⟨rfl, rfl, rfl⟩)) (s.failCheck_restKept i _)).keepsRest

theorem execLinePeriodExpiry_keepsRest {s t : State} {i} (h : exec (.linePeriodExpiry i) s = .next t) : s.KeepsRest t := by
  cases h
  split
  · exact (State.RestKept.ite (s.missLine_restKept i _ _ _) (.ite (s.modifySource_restKept i _ (.inr ⟨rfl, rfl, rfl⟩)) (.refl s))).keepsRest
  · exact .refl s

theorem execFadeExpiry_keepsRest {s t : State} {i} (h : exec (.fadeExpiry i) s = .next t) : s.KeepsRest t := by
  cases h
  exact (State.RestKept.ite (s.modifySource_restKept i _ (.inl (show SourceState.draining ≠ .idle by decide))) (.refl s)).keepsRest

theorem execHeadTake_keepsRest {s t : State} (h : exec (.headTake) s = .next t) : s.KeepsRest t := by
  cases h
  split
  · exact .refl s
  · exact State.closeEvent_keepsRest _ _

theorem execWriteConfirmed_keepsRest {s t : State} {n} (h : exec (.writeConfirmed n) s = .next t) : s.KeepsRest t := by
  cases h
  split
  · exact .refl s
  · split
    · exact (((s.storeRecord_restKept _).trans (State.reportOp_restKept _ n)).trans (State.landWrite_restKept _ _)).keepsRest
    · exact .refl s

theorem execWriteFailed_keepsRest {s t : State} {n} (h : exec (.writeFailed n) s = .next t) : s.KeepsRest t := by
  cases h
  split
  · exact .refl s
  · split
    · exact State.closeEvent_keepsRest _ _
    · exact .refl s

theorem execCopyConfirmed_keepsRest {s t : State} {n} (h : exec (.copyConfirmed n) s = .next t) : s.KeepsRest t := by
  cases h
  split
  · exact .refl s
  · split
    · exact .refl s
    · exact (((s.storeRecord_restKept _).trans (State.reportOp_restKept _ n)).trans (State.landCopy_restKept _ _ _)).keepsRest

theorem execCopyFailed_keepsRest {s t : State} {n} (h : exec (.copyFailed n) s = .next t) : s.KeepsRest t := by
  cases h
  split
  · exact .refl s
  · split
    · exact .refl s
    · exact State.closeEvent_keepsRest _ _

theorem execCopyReadCorrupt_keepsRest {s t : State} {n} (h : exec (.copyReadCorrupt n) s = .next t) : s.KeepsRest t := by
  cases h
  split
  · exact .refl s
  · split
    · exact .refl s
    · exact State.closeEvent_keepsRest _ _

theorem execConfirmationTimeout_keepsRest {s t : State} {n} (h : exec (.confirmationTimeout n) s = .next t) : s.KeepsRest t := by
  cases h
  split
  · exact .refl s
  · dsimp only
    split <;> exact State.closeEvent_keepsRest _ _

theorem execLateReport_keepsRest {s t : State} {n carried} (h : exec (.lateReport n carried) s = .next t) : s.KeepsRest t := by
  cases h
  split
  · exact .refl s
  · split
    · exact (s.answered_restKept n).keepsRest
    · exact (State.RestKept.ite ((s.storeRecord_restKept _).trans (State.answered_restKept _ n)) (s.answered_restKept n)).keepsRest

theorem execReadData_keepsRest {s t : State} {k bytes} (h : exec (.readData k bytes) s = .next t) : s.KeepsRest t := by
  cases h
  split
  · exact .refl s
  · split
    · exact .refl s
    · exact .ite (.refl s) (State.closeEvent_keepsRest _ _)

theorem execReadTimeout_keepsRest {s t : State} {k} (h : exec (.readTimeout k) s = .next t) : s.KeepsRest t := by
  cases h
  split
  · exact .refl s
  · split
    · exact .refl s
    · exact State.closeEvent_keepsRest _ _

/-- A search taken up goes on to its first read or its result (R107). -/
theorem execSeamJobTake_keepsRest {s t : State} (h : exec (.seamJobTake) s = .next t) : s.KeepsRest t := by
  cases h
  split
  · split
    · exact .refl s
    · next g k rest _ _ _ x _ =>
      have htaken : s.Searches (({ s with seamQueue := rest, engine := some x } : State).modifySeam g k
          fun m => { m with state := .searching }) := ⟨rfl, rfl, rfl⟩
      have hsearches := (htaken.trans (State.refillQueue_remosaics _).searches).trans (State.carrySearch_searches _)
      rintro ⟨hsources, -, hcursors⟩
      refine ⟨fun i => ?_, State.carrySearch_rests _, fun c => ?_⟩
      · simpa only [State.source, hsearches.sources] using hsources i
      · simpa only [State.cursor, State.holder, hsearches.cursors, hsearches.holders] using hcursors c
  · exact .refl s
  · exact .refl s

theorem execRequestRefused_keepsRest {s t : State} {n tag refusal}
    (h : exec (.requestRefused n tag refusal) s = .next t) : s.KeepsRest t := by
  cases h
  have hrefused := fun st => (s.beginCommand_restKept n (tag.getD 0)).answered (n := n) st []
  split
  · exact .refl s
  · exact (s.answerBusy_restKept n tag).keepsRest
  · exact hrefused _
  · exact hrefused _

theorem execSetClock_keepsRest {s t : State} {n tag second day weekday}
    (h : exec (.setClock n tag second day weekday) s = .next t) : s.KeepsRest t := by
  cases h
  refine s.request_keepsRest n tag _ fun u => ?_
  split
  · exact u.answer_keepsRest _ _
  · have hset : ∀ c, u.RestKept { u with clock := c } := fun _ => .of_eq rfl rfl rfl rfl rfl
    exact .ite (u.answer_keepsRest _ _) (State.closeEvent_keepsRest _ _)

theorem execSourceConfig_keepsRest {s t : State} {n tag a} (h : exec (.sourceConfig n tag a) s = .next t) : s.KeepsRest t := by
  cases h
  refine s.request_keepsRest n tag _ fun u => ?_
  split
  · exact u.answer_keepsRest _ _
  · exact .ite ((u.modifySource_restKept _ _ (.inr ⟨rfl, rfl, rfl⟩)).answered _ _) (u.answer_keepsRest _ _)

theorem execStoreConfig_keepsRest {s t : State} {n tag a} (h : exec (.storeConfig n tag a) s = .next t) : s.KeepsRest t := by
  cases h
  refine s.request_keepsRest n tag _ fun u => ?_
  have hset : ∀ c, u.RestKept { u with storeConfig := c } := fun _ => .of_eq rfl rfl rfl rfl rfl
  exact .ite ((hset _).answered _ _) (u.answer_keepsRest _ _)

theorem execSourceStatus_keepsRest {s t : State} {n tag i} (h : exec (.sourceStatus n tag i) s = .next t) : s.KeepsRest t := by
  cases h
  refine s.request_keepsRest n tag _ fun u => ?_
  split <;> exact u.answer_keepsRest _ _

theorem execFrameInfo_keepsRest {s t : State} {n tag f} (h : exec (.frameInfo n tag f) s = .next t) : s.KeepsRest t := by
  cases h
  refine s.request_keepsRest n tag _ fun u => ?_
  split <;> exact u.answer_keepsRest _ _

theorem execScheduleRead_keepsRest {s t : State} {n tag e} (h : exec (.scheduleRead n tag e) s = .next t) : s.KeepsRest t := by
  cases h
  refine s.request_keepsRest n tag _ fun u => ?_
  split <;> exact u.answer_keepsRest _ _

theorem execMosaicInfo_keepsRest {s t : State} {n tag g} (h : exec (.mosaicInfo n tag g) s = .next t) : s.KeepsRest t := by
  cases h
  refine s.request_keepsRest n tag _ fun u => ?_
  split <;> exact u.answer_keepsRest _ _

theorem execPrepare_keepsRest {s t : State} {n tag e given day}
    (h : exec (.prepare n tag e given day) s = .next t) : s.KeepsRest t := by
  cases h
  refine s.request_keepsRest n tag _ fun u => ?_
  have hprepared : ∀ e d day, u.KeepsRest (u.prepareFor n e d day) := fun e d day => by
    unfold State.prepareFor
    split
    · exact u.answer_keepsRest _ _
    · split
      · exact u.answer_keepsRest _ _
      · exact (u.setFrame_restKept _ _).answered _ _
  split
  · exact u.answer_keepsRest _ _
  · refine .ite (u.answer_keepsRest _ _) ?_
    split
    · exact u.answer_keepsRest _ _
    · exact .ite (hprepared _ _ _) (.ite (hprepared _ _ _) (u.answer_keepsRest _ _))

theorem execReserve_keepsRest {s t : State} {n tag kind number}
    (h : exec (.reserve n tag kind number) s = .next t) : s.KeepsRest t := by
  cases h
  refine s.request_keepsRest n tag _ fun u => ?_
  split
  · exact u.answer_keepsRest _ _
  · exact .ite (u.answer_keepsRest _ _) ((u.setReservation_restKept _ _).answered _ _)

theorem execScheduleWrite_keepsRest {s t : State} {n tag e a} (h : exec (.scheduleWrite n tag e a) s = .next t) : s.KeepsRest t := by
  cases h
  refine s.request_keepsRest n tag _ fun u => ?_
  split
  · exact u.commit_keepsRest _ fun v => .refl v
  · exact u.commit_keepsRest _ fun v => v.writeEntry_keepsRest _ _

theorem execScheduleSuspend_keepsRest {s t : State} {n tag e} (h : exec (.scheduleSuspend n tag e) s = .next t) : s.KeepsRest t := by
  cases h
  refine s.request_keepsRest n tag _ fun u => ?_
  split
  · exact u.commit_keepsRest _ fun v => .refl v
  · exact u.commit_keepsRest _ fun v => v.suspendEntry_keepsRest _

theorem execScheduleVacate_keepsRest {s t : State} {n tag e} (h : exec (.scheduleVacate n tag e) s = .next t) : s.KeepsRest t := by
  cases h
  refine s.request_keepsRest n tag _ fun u => ?_
  split
  · exact u.commit_keepsRest _ fun v => .refl v
  · exact u.commit_keepsRest _ fun v => v.vacateEntry_keepsRest _

theorem execFrameAnnotate_keepsRest {s t : State} {n tag f mark title}
    (h : exec (.frameAnnotate n tag f mark title) s = .next t) : s.KeepsRest t := by
  cases h
  refine s.request_keepsRest n tag _ fun u => ?_
  split
  · exact u.commit_keepsRest _ fun v => .refl v
  · exact u.commit_keepsRest _ fun v => v.annotate_keepsRest _ _ _

theorem execFrameRelease_keepsRest {s t : State} {n tag f} (h : exec (.frameRelease n tag f) s = .next t) : s.KeepsRest t := by
  cases h
  refine s.request_keepsRest n tag _ fun u => ?_
  split
  · exact u.commit_keepsRest _ fun v => .refl v
  · exact u.commit_keepsRest _ fun v => v.release_keepsRest _

theorem execMosaicDefine_keepsRest {s t : State} {n tag g l} (h : exec (.mosaicDefine n tag g l) s = .next t) : s.KeepsRest t := by
  cases h
  refine s.request_keepsRest n tag _ fun u => ?_
  split
  · exact u.commit_keepsRest _ fun v => .refl v
  · exact u.commit_keepsRest _ fun v => v.define_keepsRest _ _

theorem execMosaicDissolve_keepsRest {s t : State} {n tag g} (h : exec (.mosaicDissolve n tag g) s = .next t) : s.KeepsRest t := by
  cases h
  refine s.request_keepsRest n tag _ fun u => ?_
  split
  · exact u.commit_keepsRest _ fun v => .refl v
  · exact u.commit_keepsRest _ fun v => v.dissolve_keepsRest _

theorem execPin_keepsRest {s t : State} {n tag f} (h : exec (.pin n tag f) s = .next t) : s.KeepsRest t := by
  cases h
  refine s.request_keepsRest n tag _ fun u => ?_
  split
  · exact u.answer_keepsRest _ _
  · exact .ite (u.answer_keepsRest _ _) ((u.setFrame_restKept _ _).answered _ _)

theorem execUnpin_keepsRest {s t : State} {n tag f} (h : exec (.unpin n tag f) s = .next t) : s.KeepsRest t := by
  cases h
  refine s.request_keepsRest n tag _ fun u => ?_
  split
  · exact u.answer_keepsRest _ _
  · exact .ite (u.answer_keepsRest _ _) ((u.setFrame_restKept _ _).answered _ _)

theorem execCursorOpen_keepsRest {s t : State} {n tag a} (h : exec (.cursorOpen n tag a) s = .next t) : s.KeepsRest t := by
  cases h
  refine s.request_keepsRest n tag _ fun u => ?_
  dsimp only
  split
  · exact u.answer_keepsRest _ _
  · exact u.answer_keepsRest _ _
  · split
    · exact u.answer_keepsRest _ _
    · exact (u.attachCursor_keepsRest _ _).trans (State.answer_keepsRest _ _ _)

theorem execCursorSet_keepsRest {s t : State} {n tag a} (h : exec (.cursorSet n tag a) s = .next t) : s.KeepsRest t := by
  cases h
  refine s.request_keepsRest n tag _ fun u => ?_
  dsimp only
  split
  · exact u.answer_keepsRest _ _
  · exact u.answer_keepsRest _ _
  · next hopen =>
    split
    · exact u.answer_keepsRest _ _
    · exact (State.storeCursor_keepsRest hopen _).trans (State.answer_keepsRest _ _ _)

theorem execCursorClose_keepsRest {s t : State} {n tag c} (h : exec (.cursorClose n tag c) s = .next t) : s.KeepsRest t := by
  cases h
  refine s.request_keepsRest n tag _ fun u => ?_
  dsimp only
  split
  · exact u.answer_keepsRest _ _
  · exact (u.detachCursor_closes _).1.answered _ _
  · exact (u.detachCursor_closes _).1.answered _ _

theorem execReadMap_keepsRest {s t : State} {n tag kind number first count}
    (h : exec (.readMap n tag kind number first count) s = .next t) : s.KeepsRest t := by
  cases h
  refine s.request_keepsRest n tag _ fun u => ?_
  split
  · exact u.answer_keepsRest _ _
  · refine .ite ?_ (u.answer_keepsRest _ _)
    split
    · exact u.answer_keepsRest _ _
    · exact .ite (u.answer_keepsRest _ _) (u.answer_keepsRest _ _)

theorem execScan_keepsRest {s t : State} {n tag c condition parameter limit}
    (h : exec (.scan n tag c condition parameter limit) s = .next t) : s.KeepsRest t := by
  cases h
  refine s.request_keepsRest n tag _ fun u => ?_
  dsimp only
  split
  · exact u.answer_keepsRest _ _
  · refine .ite ?_ (u.answer_keepsRest _ _)
    split
    · exact u.answer_keepsRest _ _
    · exact u.answer_keepsRest _ _
    · next x hx =>
      exact (u.modifyCursor_restKept _ fun _ => ⟨by rw [Cursor.openFields, hx]; rfl, rfl⟩).answered _ _

theorem execNoticeSetLevels_keepsRest {s t : State} {n tag l} (h : exec (.noticeSetLevels n tag l) s = .next t) : s.KeepsRest t := by
  cases h
  exact s.request_keepsRest n tag _ fun u => .ite ((u.setClient_restKept _ _).answered _ _) (u.answer_keepsRest _ _)

theorem execNoticeSetThreshold_keepsRest {s t : State} {n tag k}
    (h : exec (.noticeSetThreshold n tag k) s = .next t) : s.KeepsRest t := by
  cases h
  exact s.request_keepsRest n tag _ fun u => .ite ((u.setClient_restKept _ _).answered _ _) (u.answer_keepsRest _ _)

theorem execNoticeAck_keepsRest {s t : State} {n tag kind sort number given count}
    (h : exec (.noticeAck n tag kind sort number given count) s = .next t) : s.KeepsRest t := by
  cases h
  refine s.request_keepsRest n tag _ fun u => ?_
  split
  · exact u.answer_keepsRest _ _
  · exact .ite (u.answer_keepsRest _ _) ((u.setClient_restKept _ _).answered _ _)

theorem execNoticeRaise_keepsRest {s t : State} {n tag target code}
    (h : exec (.noticeRaise n tag target code) s = .next t) : s.KeepsRest t := by
  cases h
  refine s.request_keepsRest n tag _ fun u => ?_
  split
  · exact u.answer_keepsRest _ _
  · exact .ite ((u.setClient_restKept _ _).answered _ _) (u.answer_keepsRest _ _)

theorem execErrorsTake_keepsRest {s t : State} {n tag k} (h : exec (.errorsTake n tag k) s = .next t) : s.KeepsRest t := by
  cases h
  refine s.request_keepsRest n tag _ fun u => ?_
  split
  · exact u.answer_keepsRest _ _
  · have hset : ∀ l, u.RestKept { u with errors := l } := fun _ => .of_eq rfl rfl rfl rfl rfl
    exact ((hset _).trans (State.clearMarks_restKept _ _)).answered _ _

theorem execStoreClear_keepsRest {s t : State} {n tag} (h : exec (.storeClear n tag) s = .next t) : s.KeepsRest t := by
  cases h
  exact s.request_keepsRest n tag _ fun _ => State.closeEvent_keepsRest _ _

theorem exec_keepsRest {c : Instr} {s t : State} (h : exec c s = .next t) : s.KeepsRest t := by
  cases c with
  | reset _ _ _ => exact execReset_keepsRest h
  | portStartupDone => exact execPortStartupDone_keepsRest h
  | clockSecond => exact execClockSecond_keepsRest h
  | start i f d r => exact State.keepsRest_of_record rfl h
  | phase i q p => exact State.keepsRest_of_record rfl h
  | image i q k w p => exact State.keepsRest_of_record rfl h
  | stop i => exact State.keepsRest_of_record rfl h
  | drop i => exact State.keepsRest_of_record rfl h
  | resume i => exact State.keepsRest_of_record rfl h
  | idle i => exact State.keepsRest_of_record rfl h
  | failedCheckRecord _ _ => exact execFailedCheckRecord_keepsRest h
  | linkSilenceExpiry i => cases h; exact (State.RestKept.ite (s.loseLink_restKept i 1) (.refl s)).keepsRest
  | linePeriodExpiry _ => exact execLinePeriodExpiry_keepsRest h
  | fadeExpiry _ => exact execFadeExpiry_keepsRest h
  | headTake => exact execHeadTake_keepsRest h
  | settleExpiry f => cases h; exact (State.RestKept.ite (s.settle_restKept f) (.refl s)).keepsRest
  | arbiterGrant => cases h; exact s.grant_restKept.keepsRest
  | writeConfirmed _ => exact execWriteConfirmed_keepsRest h
  | writeFailed _ => exact execWriteFailed_keepsRest h
  | copyConfirmed _ => exact execCopyConfirmed_keepsRest h
  | copyFailed _ => exact execCopyFailed_keepsRest h
  | copyReadCorrupt _ => exact execCopyReadCorrupt_keepsRest h
  | confirmationTimeout _ => exact execConfirmationTimeout_keepsRest h
  | lateReport _ _ => exact execLateReport_keepsRest h
  | readData _ _ => exact execReadData_keepsRest h
  | readTimeout _ => exact execReadTimeout_keepsRest h
  | seamJobTake => exact execSeamJobTake_keepsRest h
  | requestWhileBusy n tag => cases h; exact (State.RestKept.ite (s.answerBusy_restKept n tag) (.refl s)).keepsRest
  | requestRefused _ _ _ => exact execRequestRefused_keepsRest h
  | responseRead n => cases h; exact (s.setPort_restKept n _).keepsRest
  | getInfo n tag => cases h; exact s.request_keepsRest n tag _ fun u => u.answer_keepsRest _ _
  | setClock _ _ _ _ _ => exact execSetClock_keepsRest h
  | getClock n tag => cases h; exact s.request_keepsRest n tag _ fun u => .ite (u.answer_keepsRest _ _) (u.answer_keepsRest _ _)
  | sourceConfig _ _ _ => exact execSourceConfig_keepsRest h
  | storeConfig _ _ _ => exact execStoreConfig_keepsRest h
  | sourceStatus _ _ _ => exact execSourceStatus_keepsRest h
  | frameList n tag => cases h; exact s.request_keepsRest n tag _ fun u => u.answer_keepsRest _ _
  | frameInfo _ _ _ => exact execFrameInfo_keepsRest h
  | scheduleRead _ _ _ => exact execScheduleRead_keepsRest h
  | mosaicInfo _ _ _ => exact execMosaicInfo_keepsRest h
  | prepare _ _ _ _ _ => exact execPrepare_keepsRest h
  | reserve _ _ _ _ => exact execReserve_keepsRest h
  | scheduleWrite _ _ _ _ => exact execScheduleWrite_keepsRest h
  | scheduleSuspend _ _ _ => exact execScheduleSuspend_keepsRest h
  | scheduleVacate _ _ _ => exact execScheduleVacate_keepsRest h
  | frameAnnotate _ _ _ _ _ => exact execFrameAnnotate_keepsRest h
  | frameRelease _ _ _ => exact execFrameRelease_keepsRest h
  | mosaicDefine _ _ _ _ => exact execMosaicDefine_keepsRest h
  | mosaicDissolve _ _ _ => exact execMosaicDissolve_keepsRest h
  | pin _ _ _ => exact execPin_keepsRest h
  | unpin _ _ _ => exact execUnpin_keepsRest h
  | cursorOpen _ _ _ => exact execCursorOpen_keepsRest h
  | cursorSet _ _ _ => exact execCursorSet_keepsRest h
  | cursorClose _ _ _ => exact execCursorClose_keepsRest h
  | readNext n tag c count => cases h; exact s.request_keepsRest n tag _ fun u => u.readCommand_keepsRest _ _ _
  | readAt n tag c offset => cases h; exact s.request_keepsRest n tag _ fun u => u.readCommand_keepsRest _ _ _
  | readMap _ _ _ _ _ _ => exact execReadMap_keepsRest h
  | scan _ _ _ _ _ _ => exact execScan_keepsRest h
  | noticeSetLevels _ _ _ => exact execNoticeSetLevels_keepsRest h
  | noticeSetThreshold _ _ _ => exact execNoticeSetThreshold_keepsRest h
  | noticeSummary n tag k => cases h; exact s.request_keepsRest n tag _ fun u => .ite (u.answer_keepsRest _ _) (u.answer_keepsRest _ _)
  | noticeAck _ _ _ _ _ _ _ => exact execNoticeAck_keepsRest h
  | noticeRaise _ _ _ _ => exact execNoticeRaise_keepsRest h
  | errorsPeek n tag count => cases h; exact s.request_keepsRest n tag _ fun u => .ite (u.answer_keepsRest _ _) (u.answer_keepsRest _ _)
  | errorsTake _ _ _ => exact execErrorsTake_keepsRest h
  | storeClear _ _ => exact execStoreClear_keepsRest h
  | portReset n tag => cases h; exact s.request_keepsRest n tag _ fun u => (u.resetClient_keepsRest n).trans (State.answer_keepsRest _ _ _)
  | frameWrittenWhileStarting n => cases h; exact .refl s

theorem step_keepsRest {s t : State} (h : step s = .next t) : s.KeepsRest t := by
  unfold step at h
  split at h
  · cases h; exact .refl s
  · next c rest _ =>
    have hrest : s.RestKept { s with pending := rest } := .of_eq rfl rfl rfl rfl rfl
    exact hrest.keepsRest.trans (exec_keepsRest h)

/-- Settles O60: each command either ends its event, which leaves nothing waiting, or brings nothing to wait. -/
theorem stepsLeaveNothingWaiting : Obligations.StepsLeaveNothingWaiting :=
  ⟨fun _ _ r h => step_keepsRest h r, fun _ _ hok h => (step_steps h).jobs hok⟩

end Sys2Proof.Machine
end

section
/-! SUPPORT. The records of a line link (chapter 2): what each leaves of its source, where nothing waits for the end of the event. -/

namespace Sys2Proof.Machine

/-! ### A record that brings no START to be taken (R22) -/

section Heard
variable {s : State} {i : SourceId}

theorem Source.not_startWaits_of_state {x : Source} (h : x.state ≠ .idle) : ¬ x.startWaits := fun ⟨_, hidle, _⟩ => h hidle

theorem State.atRest.not_startWaits (r : s.atRest) (i : SourceId) : ¬ (s.source i).startWaits := (s.atRest_iff.mp r).1 i

theorem State.setSource_atRest (r : s.atRest) {x : Source} (h : ¬ x.startWaits) : (s.setSource i x).atRest := by
  obtain ⟨hstarts, hengine, hcursors⟩ := s.atRest_iff.mp r
  refine (State.atRest_iff _).mpr ⟨fun j => ?_, hengine, hcursors⟩
  rw [State.source_setSource]
  split
  · exact h
  · exact hstarts j

theorem State.record_of_atRest (hl : (s.source i).state ≠ .linkDown) {take : State → State} (h : (take (s.heard i)).atRest) :
    s.record i take = take (s.heard i) := by
  rw [State.record_of_not_linkDown hl, State.closeEvent_of_atRest h]

theorem State.heard_modifySource (g : Source → Source) :
    (s.heard i).modifySource i g = s.setSource i (g (s.source i).goodRecord) := by
  rw [State.modifySource_eq, State.setSource_setSource, State.source_setSource_self]

/-- A record that changes its source alone. -/
theorem State.record_modifySource (r : s.atRest) (hl : (s.source i).state ≠ .linkDown) (g : Source → Source)
    (h : ¬ (g (s.source i).goodRecord).startWaits) :
    s.record i (fun u => u.modifySource i g) = s.setSource i (g (s.source i).goodRecord) := by
  have hset : (s.heard i).modifySource i g = s.setSource i (g (s.source i).goodRecord) := State.heard_modifySource g
  rw [State.record_of_atRest hl (by rw [hset]; exact State.setSource_atRest r h), hset]

end Heard

/-! ### The end of a stream (R26, R38 to R40) -/

theorem hysteresisAfterPush_succ (n : Nat) (h : Bool) : hysteresisAfterPush (n + 1) h = if 11 ≤ n then true else h := by
  simp only [hysteresisAfterPush, Nat.reduceLeDiff]

theorem Source.endStream_eq (x : Source) (e : StopEnd) :
    x.endStream e = { x with
      state := .draining, ring := x.ring ++ [.marker e], hysteresis := if 11 ≤ x.ring.length then true else x.hysteresis
      linePeriodTimer := none, fadeTimer := none } := by
  simp only [Source.endStream, Source.push, Source.stopTimers, hysteresisAfterPush_succ]

theorem Source.not_linkDown_of_inStream {x : Source} (h : x.state.inStream = true) : x.state ≠ .linkDown :=
  fun hs => by rw [hs] at h; cases h

theorem SourceState.inStream_iff {x : SourceState} : x.inStream = true ↔ x = .phasing ∨ x = .receiving ∨ x = .faded := by
  cases x <;> simp [SourceState.inStream]

theorem Source.takeStop_of_inStream {x : Source} (h : x.state.inStream = true) : x.takeStop = x.endStream .normal := by
  rcases SourceState.inStream_iff.mp h with hs | hs | hs <;> simp [Source.takeStop, hs]

theorem Source.endPhasingEarly_eq (x : Source) :
    x.endPhasingEarly = { x with
      state := .receiving, positions := [], reference := if 4 ≤ x.positions.length then medianColumn x.positions else 0
      unphased := decide (x.positions.length < 4) } := by
  unfold Source.endPhasingEarly Source.endPhasing
  split
  · next h => rw [decide_eq_false (by omega)]
  · next h => rw [decide_eq_true (by omega)]

/-! ### STOP, DROP, RESUME and IDLE (R22, R28, R37 to R39, R42) -/

section Records
variable {s : State} {i : SourceId}

theorem exec_stop (r : s.atRest) (hl : (s.source i).state ≠ .linkDown) (h : ¬ (s.source i).goodRecord.takeStop.startWaits) :
    exec (.stop i) s = .next (s.setSource i (s.source i).goodRecord.takeStop) :=
  congrArg Host.Outcome.next (State.record_modifySource r hl _ h)

theorem exec_resume (r : s.atRest) (hl : (s.source i).state ≠ .linkDown) (h : ¬ (s.source i).goodRecord.takeResume.startWaits) :
    exec (.resume i) s = .next (s.setSource i (s.source i).goodRecord.takeResume) :=
  congrArg Host.Outcome.next (State.record_modifySource r hl _ h)

theorem exec_drop (hl : (s.source i).state ≠ .linkDown) (h : ((s.heard i).takeDrop i).atRest) :
    exec (.drop i) s = .next ((s.heard i).takeDrop i) :=
  congrArg Host.Outcome.next (State.record_of_atRest (take := fun u => u.takeDrop i) hl h)

theorem exec_idle (r : s.atRest) (hl : (s.source i).state ≠ .linkDown) : exec (.idle i) s = .next (s.heard i) :=
  congrArg Host.Outcome.next (State.record_of_atRest (take := id) hl ((s.goodRecord_restKept i).atRest r))

/-- A DROP in a state that it does not end or fade is only a good record (R28, R42). -/
theorem exec_drop_of_ignored (r : s.atRest)
    (h : (s.source i).state = .faded ∨ (s.source i).state = .idle ∨ (s.source i).state = .draining) :
    exec (.drop i) s = .next (s.heard i) := by
  have hdrop : (s.heard i).takeDrop i = s.heard i := by
    have hs : ((s.heard i).source i).state = (s.source i).state := by simp [Source.goodRecord]
    unfold State.takeDrop
    rcases h with h | h | h <;> simp only [hs, h]
  rw [exec_drop (by rcases h with h | h | h <;> simp [h]) (by rw [hdrop]; exact (s.goodRecord_restKept i).atRest r), hdrop]

/-- The source fades from the state `x` that its record leaves (R37). -/
theorem State.enterFaded_setSource (s : State) (i : SourceId) (x : Source) (byMisses : Bool) :
    (s.setSource i x).enterFaded i byMisses
      = (s.setSource i { x with state := .faded, fadeTimer := some (x.config.fadeLimit * 1000) }).raise (.source i)
          (.fade x.boundFrame byMisses) := by
  unfold State.enterFaded
  rw [State.modifySource_eq, State.setSource_setSource, State.source_setSource_self]

theorem exec_drop_of_receiving (r : s.atRest) (h : (s.source i).state = .receiving) :
    exec (.drop i) s = .next ((s.heard i).enterFaded i false) := by
  have hdrop : (s.heard i).takeDrop i = (s.heard i).enterFaded i false := by
    have hs : ((s.heard i).source i).state = .receiving := by simpa [Source.goodRecord] using h
    simp only [State.takeDrop, hs]
  have hkept := (s.goodRecord_restKept i).trans ((s.heard i).enterFaded_restKept i false)
  rw [exec_drop (by simp [h]) (by rw [hdrop]; exact hkept.atRest r), hdrop]

theorem exec_drop_of_phasing (r : s.atRest) (h : (s.source i).state = .phasing) :
    exec (.drop i) s = .next ((s.setSource i (s.source i).goodRecord.endPhasingEarly).enterFaded i false) := by
  have hdrop : (s.heard i).takeDrop i = (s.setSource i (s.source i).goodRecord.endPhasingEarly).enterFaded i false := by
    have hs : ((s.heard i).source i).state = .phasing := by simpa [Source.goodRecord] using h
    simp only [State.takeDrop, hs, State.heard_modifySource]
  have hearly : s.RestKept (s.setSource i (s.source i).goodRecord.endPhasingEarly) :=
    .setSource (.inl (by simp [Source.endPhasingEarly_eq]))
  rw [exec_drop (by simp [h]) (by rw [hdrop]; exact (hearly.trans (State.enterFaded_restKept _ i false)).atRest r), hdrop]

theorem exec_drop_of_discarding (r : s.atRest) (h : (s.source i).state = .discarding) (hheld : (s.source i).held = none) :
    exec (.drop i) s = .next (s.setSource i (s.source i).goodRecord.endDiscard) := by
  have hdrop : (s.heard i).takeDrop i = s.setSource i (s.source i).goodRecord.endDiscard := by
    have hs : ((s.heard i).source i).state = .discarding := by simpa [Source.goodRecord] using h
    simp only [State.takeDrop, hs, State.heard_modifySource]
  have hfree : ¬ (s.source i).goodRecord.endDiscard.startWaits := fun ⟨hwaits, _⟩ => by
    rw [show (s.source i).goodRecord.endDiscard.held = none from hheld] at hwaits; cases hwaits
  rw [exec_drop (by simp [h]) (by rw [hdrop]; exact State.setSource_atRest r hfree), hdrop]

end Records

/-- Settles O25: each record changes its source alone, or fades it, and what it leaves waits for no end. -/
theorem stopDropResumeAndIdleAreTaken : Obligations.StopDropResumeAndIdleAreTaken := by
  intro i s r x good faded
  have hgood : ¬ good.startWaits := r.not_startWaits i
  refine ⟨fun h => ?_, fun h hheld => ?_, fun h => ?_, fun h => ?_, fun h => ?_, fun h => ?_, fun h hl => ?_, fun hl => ?_⟩
  · have hstream : good.state.inStream = true := SourceState.inStream_iff.mpr h
    have htake : good.takeStop = good.endStream .normal := Source.takeStop_of_inStream hstream
    rw [exec_stop r (Source.not_linkDown_of_inStream hstream)
      (Source.not_startWaits_of_state (by rw [show (s.source i).goodRecord.takeStop = _ from htake]; exact nofun))]
    rw [show (s.source i).goodRecord.takeStop = _ from htake, Source.endStream_eq]
  · have htake : good.takeStop = good.endDiscard := by simp only [Source.takeStop, show good.state = .discarding from h]
    refine ⟨?_, exec_drop_of_discarding r h hheld⟩
    have hfree : ¬ good.takeStop.startWaits := fun ⟨hwaits, _⟩ => by
      rw [htake, show good.endDiscard.held = none from hheld] at hwaits; cases hwaits
    rw [exec_stop r (by rw [show (s.source i).state = .discarding from h]; decide) hfree]
    exact congrArg (fun y => Host.Outcome.next (s.setSource i y)) htake
  · have htake : good.takeStop = good := by
      rcases h with h | h <;> simp only [Source.takeStop, show good.state = _ from h]
    refine ⟨?_, exec_drop_of_ignored r (.inr h)⟩
    have hl : (s.source i).state ≠ .linkDown := by rcases h with h | h <;> rw [show (s.source i).state = _ from h] <;> decide
    rw [exec_stop r hl (by rw [show (s.source i).goodRecord.takeStop = _ from htake]; exact hgood)]
    exact congrArg (fun y => Host.Outcome.next (s.setSource i y)) htake
  · rw [exec_drop_of_receiving r h, State.enterFaded_setSource]
    rfl
  · rw [exec_drop_of_phasing r h, State.enterFaded_setSource, Source.endPhasingEarly_eq]
    rfl
  · refine ⟨exec_drop_of_ignored r (.inl h), ?_⟩
    have htake : good.takeResume = { good with state := .receiving, fadeTimer := none, misses := 0 } :=
      if_pos (show good.state = .faded from h)
    rw [exec_resume r (by rw [show (s.source i).state = .faded from h]; decide)
      (by rw [show (s.source i).goodRecord.takeResume = _ from htake]; exact Source.not_startWaits_of_state nofun)]
    exact congrArg (fun y => Host.Outcome.next (s.setSource i y)) htake
  · have htake : good.takeResume = good := if_neg h
    rw [exec_resume r hl (by rw [show (s.source i).goodRecord.takeResume = _ from htake]; exact hgood)]
    exact congrArg (fun y => Host.Outcome.next (s.setSource i y)) htake
  · exact exec_idle r hl

end Sys2Proof.Machine
end

section
/-! SUPPORT. STARTs, lines and the source configuration (R26, R31 to R34, R40, R46). -/

namespace Sys2Proof.Machine

/-! ### START during a stream (R26, R30) -/

section Starts
variable {s : State} {i : SourceId}

theorem exec_start_of_atRest (hl : (s.source i).state ≠ .linkDown) (x : StartRecord)
    (h : ((s.heard i).takeStart i x).atRest) :
    exec (.start i x.frequency x.drum x.rate) s = .next ((s.heard i).takeStart i x) :=
  congrArg Host.Outcome.next (State.record_of_atRest (take := fun u => u.takeStart i x) hl h)

/-- A START during a stream ends it and is held (R26). -/
theorem State.takeStart_of_inStream (h : (s.source i).state.inStream = true) (x : StartRecord) :
    (s.heard i).takeStart i x = s.setSource i { (s.source i).goodRecord.endStream .lost with held := some x } := by
  have hs : ((s.heard i).source i).state = (s.source i).state := by simp [Source.goodRecord]
  unfold State.takeStart
  rcases SourceState.inStream_iff.mp h with h | h | h <;> simp only [hs, h] <;> exact State.heard_modifySource _

/-- A START in DRAINING, or in an IDLE source that is still bound, is held (R26). -/
theorem State.takeStart_of_bound
    (h : (s.source i).state = .draining ∨ (s.source i).state = .idle ∧ (s.source i).binding.isSome = true) (x : StartRecord) :
    (s.heard i).takeStart i x = s.setSource i { (s.source i).goodRecord with held := some x } := by
  have hs : ((s.heard i).source i).state = (s.source i).state := by simp [Source.goodRecord]
  unfold State.takeStart
  rcases h with h | ⟨h, hb⟩
  · simp only [hs, h]
    exact State.heard_modifySource fun y => { y with held := some x }
  · have hbound : ((s.heard i).source i).binding.isNone = false := by
      rw [State.source_setSource_self]
      exact Option.isNone_eq_false_iff.mpr hb
    simp only [hs, h, hbound]
    exact State.heard_modifySource fun y => { y with held := some x }

/-- A START in DISCARDING is taken as in IDLE (R26). -/
theorem exec_start_of_discarding (h : (s.source i).state = .discarding) (x : StartRecord) :
    exec (.start i x.frequency x.drum x.rate) s
      = .next ((s.setSource i { (s.source i).goodRecord with state := .idle }).bindStart i x).closeEvent := by
  have hl : (s.source i).state ≠ .linkDown := by rw [h]; decide
  have hs : ((s.heard i).source i).state = .discarding := by rw [State.source_setSource_self]; exact h
  have htake : (s.heard i).takeStart i x = (s.setSource i { (s.source i).goodRecord with state := .idle }).bindStart i x := by
    simp only [State.takeStart, hs, State.heard_modifySource]
  exact congrArg Host.Outcome.next ((State.record_of_not_linkDown hl _).trans (congrArg State.closeEvent htake))

end Starts

/-- Settles O21: a START is held where the source is bound, and what holds it is not IDLE and unbound. -/
theorem startDuringAStreamIsHeld : Obligations.StartDuringAStreamIsHeld := by
  intro i frequency drum rate s x held
  let record : StartRecord := { frequency := frequency, drum := drum, rate := rate }
  have hheld : s.atRest → x.state = .draining ∨ x.state = .idle ∧ x.binding.isSome = true →
      exec (.start i frequency drum rate) s = .next (s.setSource i
        { x with held := held, silenceTimer := some 2000, checkFailures := 0 }) := by
    intro r h
    have htake := State.takeStart_of_bound (s := s) (i := i) h record
    have hl : x.state ≠ .linkDown := by rcases h with h | ⟨h, -⟩ <;> rw [h] <;> decide
    have hrest : ¬ Source.startWaits { (s.source i).goodRecord with held := some record } := by
      rintro ⟨-, hidle, hnone⟩
      rcases h with h | ⟨-, hb⟩
      · exact absurd (h.symm.trans hidle) (by decide)
      · exact ne_none_of_isSome hb hnone
    exact (exec_start_of_atRest hl record (by rw [htake]; exact State.setSource_atRest r hrest)).trans
      (congrArg Host.Outcome.next htake)
  refine ⟨fun r h => ?_, hheld, fun h hb => ?_, fun t r h ht => ?_⟩
  · have hstream : x.state.inStream = true := SourceState.inStream_iff.mpr h
    have htake := State.takeStart_of_inStream (s := s) (i := i) hstream record
    have hrest : ¬ Source.startWaits { (s.source i).goodRecord.endStream .lost with held := some record } :=
      Source.not_startWaits_of_state nofun
    refine (exec_start_of_atRest (Source.not_linkDown_of_inStream hstream) record
      (by rw [htake]; exact State.setSource_atRest r hrest)).trans (congrArg Host.Outcome.next (htake.trans ?_))
    rw [Source.endStream_eq]
    rfl
  · have hheard : (s.setSource i { x with state := .idle }).heard i = s.setSource i { x.goodRecord with state := .idle } := by
      rw [State.heard, State.setSource_setSource, State.source_setSource_self]
      rfl
    rw [exec_start (s := s.setSource i { x with state := .idle }) (by rw [State.source_setSource_self])
      (by rw [State.source_setSource_self]; exact hb), hheard]
    exact exec_start_of_discarding h record
  · rw [hheld r (.inl h)] at ht
    cases ht
    simp [Source.holdLine, held]

/-! ### Lines (R31 to R34) -/

theorem SourceState.cases_of_ne {x : SourceState} (h : x = .receiving ∨ x = .faded) : x ≠ .linkDown ∧ x.inStream = true := by
  rcases h with h | h <;> subst h <;> exact ⟨by decide, rfl⟩

theorem State.enqueueError_setSource (s : State) (i : SourceId) (x : Source) (e : ErrorReport) (marking : Bool) :
    (s.setSource i x).enqueueError e marking = (s.enqueueError e marking).setSource i x := by
  unfold State.enqueueError
  rw [show (s.setSource i x).errors = s.errors from rfl]
  split <;> rfl

theorem State.logError_setSource (s : State) (i : SourceId) (x : Source) (e : ErrorReport) :
    (s.setSource i x).logError e = (s.logError e).setSource i x := by
  rw [State.logError, State.fileError, State.enqueueError_setSource, State.raise_setSource]
  rfl

theorem State.logError_source (s : State) (e : ErrorReport) (i : SourceId) : (s.logError e).source i = s.source i := by
  have hqueued : (s.enqueueError e false).source i = s.source i := by
    unfold State.enqueueError
    split <;> rfl
  rw [State.logError, State.fileError, State.source_raise, hqueued]

/-- How far a sequence number lies ahead, in the integers modulo 4096 (R33). -/
theorem seqDistance_eq (a b : Nat) : (seqDistance a b : Int) = ((b : Int) - a) % 4096 := by
  unfold seqDistance
  omega

theorem Source.trackSequence_eq (x : Source) (rate : LineRate) (sequence : Nat) :
    x.trackSequence rate sequence = { x with
      firstSeq := some (x.firstSeq.getD sequence), expectedSeq := x.expectedAfter sequence
      misses := if x.state = .receiving then 0 else x.misses, linePeriodTimer := some (arrivalMs rate) } := by
  have hexpected : (x.trackSequence rate sequence).expectedSeq = x.expectedAfter sequence := by
    unfold Source.trackSequence Source.expectedAfter
    cases x.firstSeq with
    | none => rfl
    | some first =>
      cases x.expectedSeq with
      | none => rfl
      | some e =>
        have hahead : seqDistance e sequence < 2048 ↔ ((sequence : Int) - e) % 4096 < 2048 := by
          rw [← seqDistance_eq]
          omega
        by_cases h : seqDistance e sequence < 2048
        · simp only [if_pos h, if_pos (hahead.mp h), nextSeq]
        · simp only [if_neg h, if_neg (fun k => h (hahead.mpr k))]
  rw [← hexpected]
  rfl

theorem Source.refreshFade_eq (x : Source) :
    x.refreshFade = { x with fadeTimer := if x.state = .faded then some (x.config.fadeLimit * 1000) else x.fadeTimer } := by
  unfold Source.refreshFade
  split <;> rfl

/-- The tracking step of the reference, by the sign of the folded offset (R32). -/
theorem trackReference_eq (width window reference : Nat) (offset : Int) :
    trackReference width window reference offset =
      if 0 < offset ∧ offset ≤ window then (reference + 1) % width
      else if offset < 0 ∧ -offset ≤ window then (reference + width - 1) % width
      else reference := by
  unfold trackReference
  by_cases hstill : offset.natAbs = 0 ∨ window < offset.natAbs
  · rw [if_pos hstill, if_neg (by omega), if_neg (by omega)]
  · rw [if_neg hstill]
    by_cases hpos : 0 < offset
    · rw [if_pos hpos, if_pos (by omega)]
    · rw [if_neg hpos, if_neg (by omega), if_pos (by omega)]

theorem foldOffset_spec (d : DrumClass) {x : Int} (hlow : -(drumWidth d : Int) < x) (hhigh : x < drumWidth d) :
    (foldOffset (drumWidth d) x = x ∨ foldOffset (drumWidth d) x = x + drumWidth d ∨ foldOffset (drumWidth d) x = x - drumWidth d)
      ∧ -(drumWidth d : Int) < 2 * foldOffset (drumWidth d) x ∧ 2 * foldOffset (drumWidth d) x ≤ drumWidth d := by
  have heven : drumWidth d % 2 = 0 := by cases d <;> rfl
  unfold foldOffset
  split
  · omega
  · split <;> omega

section Lines
variable {s : State} {i : SourceId}

theorem exec_image_of_atRest (hl : (s.source i).state ≠ .linkDown) {sequence skew quality : Nat} {payload : List Byte}
    (h : ((s.heard i).takeImage i sequence skew quality payload).atRest) :
    exec (.image i sequence skew quality payload) s = .next ((s.heard i).takeImage i sequence skew quality payload) :=
  congrArg Host.Outcome.next (State.record_of_atRest (take := fun u => u.takeImage i sequence skew quality payload) hl h)

/-- The source with a line received and counted, before anything else is done with it (R31). -/
abbrev Source.counted (x : Source) : Source := x.goodRecord.countReceived

theorem State.takeImage_of_receiving (h : (s.source i).state = .receiving ∨ (s.source i).state = .faded)
    (sequence skew quality : Nat) (payload : List Byte) :
    (s.heard i).takeImage i sequence skew quality payload
      = (s.setSource i (s.source i).counted).takeLine i sequence skew quality payload := by
  have hs : ((s.heard i).source i).state = (s.source i).state := by simp [Source.goodRecord]
  unfold State.takeImage
  rw [State.heard_modifySource]
  rcases h with h | h <;> simp only [hs, h]

theorem State.takeImage_of_phasing (h : (s.source i).state = .phasing) (sequence skew quality : Nat) (payload : List Byte) :
    (s.heard i).takeImage i sequence skew quality payload
      = (s.setSource i (s.source i).counted.endPhasingEarly).takeLine i sequence skew quality payload := by
  have hs : ((s.heard i).source i).state = .phasing := by simpa [Source.goodRecord] using h
  unfold State.takeImage
  simp only [hs, State.heard_modifySource]
  rw [State.modifySource_eq, State.setSource_setSource, State.source_setSource_self]

theorem State.takeImage_of_ignored
    (h : (s.source i).state = .idle ∨ (s.source i).state = .draining ∨ (s.source i).state = .discarding)
    (sequence skew quality : Nat) (payload : List Byte) :
    (s.heard i).takeImage i sequence skew quality payload = s.setSource i (s.source i).counted := by
  have hs : ((s.heard i).source i).state = (s.source i).state := by simp [Source.goodRecord]
  unfold State.takeImage
  rw [State.heard_modifySource]
  rcases h with h | h | h <;> simp only [hs, h]

/-- The source after a line that passes both tests, but for the ring (R32, R33, R38). -/
def Source.accepted (x : Source) (g : Geometry) (sequence skew : Nat) : Source :=
  ((x.trackSkew (drumWidth g.drum) skew).trackSequence g.rate sequence).refreshFade

/-- The source after a line that fails a test (R33, R40). -/
def Source.refused (x : Source) (rate : LineRate) (sequence : Nat) : Source :=
  (x.countRejected.trackSequence rate sequence).refreshFade.endIfRejected

theorem State.acceptLine_of_room {x : Source} (h : x.ring.length ≤ 14) (g : Geometry) (sequence skew quality : Nat)
    (payload : List Byte) :
    (s.setSource i x).acceptLine i g sequence skew quality payload
      = s.setSource i ((x.accepted g sequence skew).push (.line
          { sequence := sequence, skew := skew, quality := quality, payload := payload, reference := x.reference
            unphased := x.unphased, faded := decide (x.state = .faded) })) := by
  have hring : (x.accepted g sequence skew).ring.length ≤ 14 := by
    rw [Source.accepted, Source.refreshFade_eq, Source.trackSequence_eq]
    exact h
  unfold State.acceptLine
  simp only [State.source_setSource_self, State.setSource_setSource]
  exact if_pos hring

theorem State.acceptLine_of_full {x : Source} (h : 15 ≤ x.ring.length) (g : Geometry) (sequence skew quality : Nat)
    (payload : List Byte) :
    (s.setSource i x).acceptLine i g sequence skew quality payload
      = (s.setSource i { x.accepted g sequence skew with counters :=
          { (x.accepted g sequence skew).counters with
            overrun := stickyNext 65535 (x.accepted g sequence skew).counters.overrun } }).logError
          ((x.accepted g sequence skew).lineReport i .ringOverrun (sequence % 256)) := by
  have hring : ¬ (x.accepted g sequence skew).ring.length ≤ 14 := by
    rw [Source.accepted, Source.refreshFade_eq, Source.trackSequence_eq]
    exact Nat.not_le.mpr h
  unfold State.acceptLine
  simp only [State.source_setSource_self, State.setSource_setSource]
  exact if_neg hring

theorem State.rejectLine_setSource (x : Source) (rate : LineRate) (sequence detail : Nat) :
    (s.setSource i x).rejectLine i rate sequence detail
      = (s.setSource i (x.refused rate sequence)).logError (x.countRejected.lineReport i .lineRejected detail) := by
  simp only [State.rejectLine, State.modifySource_eq, State.source_setSource_self, State.setSource_setSource,
    State.logError_setSource]
  rfl

/-- A line's two tests (R31), in a source bound to a frame. -/
theorem State.takeLine_eq {x : Source} {b : StreamBinding} (hb : x.binding = some b) (sequence skew quality : Nat)
    (payload : List Byte) :
    (s.setSource i x).takeLine i sequence skew quality payload =
      if payload.length ≠ drumBytes b.geometry.drum then (s.setSource i x).rejectLine i b.geometry.rate sequence 1
      else if drumWidth b.geometry.drum ≤ skew then (s.setSource i x).rejectLine i b.geometry.rate sequence 2
      else (s.setSource i x).acceptLine i b.geometry sequence skew quality payload := by
  simp only [State.takeLine, State.source_setSource_self, hb]

theorem Source.accepted_eq (x : Source) (g : Geometry) (sequence skew : Nat) :
    x.accepted g sequence skew = { x with
      reference := trackReference (drumWidth g.drum) x.config.trackWindow x.reference
        (foldOffset (drumWidth g.drum) ((skew : Int) - (x.reference : Int)))
      firstSeq := some (x.firstSeq.getD sequence), expectedSeq := x.expectedAfter sequence
      misses := if x.state = .receiving then 0 else x.misses, linePeriodTimer := some (arrivalMs g.rate)
      fadeTimer := if x.state = .faded then some (x.config.fadeLimit * 1000) else x.fadeTimer } := by
  rw [Source.accepted, Source.refreshFade_eq, Source.trackSequence_eq]
  rfl

/-- A line that passes both tests is accepted (R31). -/
theorem State.takeImage_of_tests {b : StreamBinding} (hx : (s.source i).state = .receiving ∨ (s.source i).state = .faded)
    (hb : (s.source i).binding = some b) {skew : Nat} {payload : List Byte} (hlen : payload.length = drumBytes b.geometry.drum)
    (hskew : skew < drumWidth b.geometry.drum) (sequence quality : Nat) :
    (s.heard i).takeImage i sequence skew quality payload
      = (s.setSource i (s.source i).counted).acceptLine i b.geometry sequence skew quality payload := by
  rw [State.takeImage_of_receiving hx, State.takeLine_eq (x := (s.source i).counted) hb, if_neg (not_not.mpr hlen),
    if_neg (Nat.not_le.mpr hskew)]

theorem Source.accepted_not_startWaits {x : Source} (hx : x.state = .receiving ∨ x.state = .faded) {y : Source}
    (h : y.state = x.state) : ¬ y.startWaits :=
  Source.not_startWaits_of_state (by rw [h]; rcases hx with hx | hx <;> rw [hx] <;> decide)

end Lines

/-- Settles O23: a line's tests, its stamp and its tracking step, by the state the line finds. -/
theorem imageIsPushedWithItsStamp : Obligations.ImageIsPushedWithItsStamp := by
  refine ⟨fun i sequence skew quality payload b s r => ?_, fun i sequence skew quality payload s => ?_,
    fun i sequence skew quality payload s r => ?_, fun d x => foldOffset_spec d⟩
  · intro x hx hb hlen hskew offset taken
    have htake := State.takeImage_of_tests (s := s) hx hb hlen hskew sequence quality
    have htaken : (s.source i).counted.accepted b.geometry sequence skew = taken := by
      rw [Source.accepted_eq, trackReference_eq]
      rfl
    have hl : x.state ≠ .linkDown := (SourceState.cases_of_ne hx).1
    refine ⟨fun hroom => ?_, fun hfull => ?_⟩
    · rw [State.acceptLine_of_room (x := (s.source i).counted) hroom, htaken] at htake
      have hkept := State.setSource_atRest (i := i) r (Source.accepted_not_startWaits hx (y := taken.push (.line
        { sequence := sequence, skew := skew, quality := quality, payload := payload
          reference := (s.source i).counted.reference, unphased := (s.source i).counted.unphased
          faded := decide ((s.source i).counted.state = .faded) })) rfl)
      rw [exec_image_of_atRest hl (by rw [htake]; exact hkept), htake, Source.push, hysteresisAfterPush_succ]
      rfl
    · rw [State.acceptLine_of_full (x := (s.source i).counted) hfull, htaken] at htake
      have hkept := State.setSource_atRest (i := i) r (Source.accepted_not_startWaits hx
        (y := { taken with counters := { taken.counters with overrun := stickyNext 65535 taken.counters.overrun } }) rfl)
      have hreport : taken.lineReport i .ringOverrun (sequence % 256) =
          { kind := .ringOverrun, origin := .source i, frame := some b.frame, row := none, pass := some b.pass
            detail := sequence % 256 } := by
        simp only [Source.lineReport, Source.boundFrame, Source.boundPass, show taken.binding = some b from hb, Option.map_some]
      rw [hreport] at htake
      rw [exec_image_of_atRest hl (by rw [htake]; exact (State.logError_restKept _ _).atRest hkept), htake]
  · intro x hx
    show Host.Outcome.next _ = Host.Outcome.next _
    have hl : (s.source i).state ≠ .linkDown := by rw [show (s.source i).state = .phasing from hx]; decide
    rw [State.record_of_not_linkDown hl, State.record_of_not_linkDown (by rw [State.source_setSource_self]; exact nofun)]
    have hearly := State.takeImage_of_phasing (s := s) (i := i) hx sequence skew quality payload
    rw [Source.endPhasingEarly_eq] at hearly
    rw [State.takeImage_of_receiving (s := s.setSource i _) (.inl (by rw [State.source_setSource_self])), hearly]
    simp only [State.source_setSource_self, State.setSource_setSource]
    rfl
  · intro x hx
    have htake := State.takeImage_of_ignored (s := s) (i := i) hx sequence skew quality payload
    have hl : x.state ≠ .linkDown := by rcases hx with h | h | h <;> rw [h] <;> decide
    have hkept : (s.setSource i x.counted).atRest := State.setSource_atRest r (r.not_startWaits i)
    rw [exec_image_of_atRest hl (by rw [htake]; exact hkept), htake]
    rfl

/-- What a line that fails a test leaves of its source, before the eighth in a row (R31, R33, R40). -/
theorem Source.refused_eq (x : Source) (rate : LineRate) (sequence : Nat) :
    x.refused rate sequence = Source.endIfRejected { x with
      rejections := stickyNext 8 x.rejections
      counters := { x.counters with rejected := stickyNext 65535 x.counters.rejected }
      firstSeq := some (x.firstSeq.getD sequence), expectedSeq := x.expectedAfter sequence
      misses := if x.state = .receiving then 0 else x.misses, linePeriodTimer := some (arrivalMs rate)
      fadeTimer := if x.state = .faded then some (x.config.fadeLimit * 1000) else x.fadeTimer } := by
  rw [Source.refused, Source.refreshFade_eq, Source.trackSequence_eq]
  rfl

/-- A line that fails a test is rejected (R31). -/
theorem State.takeImage_of_failed {s : State} {i : SourceId} {b : StreamBinding} {skew detail : Nat} {payload : List Byte}
    (hx : (s.source i).state = .receiving ∨ (s.source i).state = .faded) (hb : (s.source i).binding = some b)
    (htest : payload.length ≠ drumBytes b.geometry.drum ∧ detail = 1
      ∨ payload.length = drumBytes b.geometry.drum ∧ drumWidth b.geometry.drum ≤ skew ∧ detail = 2) (sequence quality : Nat) :
    (s.heard i).takeImage i sequence skew quality payload
      = (s.setSource i ((s.source i).counted.refused b.geometry.rate sequence)).logError
          ((s.source i).counted.countRejected.lineReport i .lineRejected detail) := by
  rw [State.takeImage_of_receiving hx, State.takeLine_eq (x := (s.source i).counted) hb]
  rcases htest with ⟨hlen, rfl⟩ | ⟨hlen, hskew, rfl⟩
  · rw [if_pos hlen, State.rejectLine_setSource]
  · rw [if_neg (not_not.mpr hlen), if_pos hskew, State.rejectLine_setSource]

/-- Settles O24: a rejected line is counted and tracked, and the count of 8 in a row ends the stream. -/
theorem imageOutsideTheStreamIsRejected : Obligations.ImageOutsideTheStreamIsRejected := by
  intro i sequence skew quality detail payload b s r x hx hb htest taken report
  have htake := State.takeImage_of_failed (s := s) hx hb htest sequence quality
  have hl : x.state ≠ .linkDown := (SourceState.cases_of_ne hx).1
  have hreport : (s.source i).counted.countRejected.lineReport i .lineRejected detail = report := by
    simp only [Source.lineReport, Source.boundFrame, Source.boundPass,
      show (s.source i).counted.countRejected.binding = some b from hb, Option.map_some]
    rfl
  rw [hreport] at htake
  have hexec : ∀ y : Source, (s.source i).counted.refused b.geometry.rate sequence = y → ¬ y.startWaits →
      exec (.image i sequence skew quality payload) s = .next ((s.setSource i y).logError report) := by
    intro y hy hrest
    rw [hy] at htake
    rw [exec_image_of_atRest hl (by rw [htake]; exact (State.logError_restKept _ _).atRest (State.setSource_atRest r hrest)), htake]
  refine ⟨fun hfew => hexec _ ?_ (Source.accepted_not_startWaits hx (y := taken) rfl), fun hseven => hexec _ ?_
    (Source.not_startWaits_of_state (by exact nofun))⟩
  · have hcount : stickyNext 8 x.rejections = x.rejections + 1 := if_pos (by omega)
    have hless : ¬ ((x.rejections + 1 = 8) ∧ x.state.inStream = true) := by omega
    rw [Source.refused_eq, Source.endIfRejected]
    simp only [show stickyNext 8 (s.source i).counted.rejections = x.rejections + 1 from hcount]
    exact if_neg hless
  · have hcount : stickyNext 8 x.rejections = x.rejections + 1 := if_pos (by omega)
    have height : (x.rejections + 1 = 8) ∧ x.state.inStream = true := ⟨by omega, (SourceState.cases_of_ne hx).2⟩
    rw [Source.refused_eq, Source.endIfRejected]
    simp only [show stickyNext 8 (s.source i).counted.rejections = x.rejections + 1 from hcount]
    exact (if_pos height).trans (Source.endStream_eq taken .overrun)

/-! ### SOURCE_CONFIG (R46) -/

theorem givenWithin_iff (low high : Nat) (x : Option Nat) : givenWithin low high x = true ↔ optionWithin low high x := by
  cases x <;> simp [givenWithin, optionWithin]

theorem sourceArgsInRange_iff (a : SourceConfigArgs) : sourceArgsInRange a = true ↔ sourceArgsAllowed a := by
  simp only [sourceArgsInRange, Bool.and_eq_true, givenWithin_iff, and_assoc]

/-- The configuration given, where ad hoc capture is 0 or 1 (log 7). -/
theorem SourceConfig.withArgs_eq (c : SourceConfig) {a : SourceConfigArgs} (h : optionWithin 0 1 a.adHoc) :
    c.withArgs a = { phasingCount := a.phasingCount.getD c.phasingCount, skewLimit := a.skewLimit.getD c.skewLimit
                     trackWindow := a.trackWindow.getD c.trackWindow, missedLimit := a.missedLimit.getD c.missedLimit
                     fadeLimit := a.fadeLimit.getD c.fadeLimit
                     adHoc := if a.adHoc = some 1 then true else if a.adHoc = some 0 then false else c.adHoc } := by
  have hadHoc : (a.adHoc.map (fun n => n == 1)).getD c.adHoc
      = if a.adHoc = some 1 then true else if a.adHoc = some 0 then false else c.adHoc := by
    cases hn : a.adHoc with
    | none => rfl
    | some n =>
      obtain ⟨-, hle⟩ := h n hn
      rcases Nat.le_one_iff_eq_zero_or_eq_one.mp hle with rfl | rfl <;> rfl
  rw [SourceConfig.withArgs, hadHoc]

theorem exec_sourceConfig_of_accepts {s : State} {n : ClientId} (h : s.accepts n [.system]) (tag : Nat) (a : SourceConfigArgs) :
    exec (.sourceConfig n tag a) s = .next (match indexOf 3 a.source with
      | none => s.withAnswer n tag .badRequest []
      | some i =>
        if sourceArgsInRange a then ((s.beginCommand n tag).modifySource i (fun x => x.configured a)).answer n .ok []
        else s.withAnswer n tag .badRequest []) :=
  congrArg Host.Outcome.next (State.request_of_accepts h tag _)

/-- Settles O28: the ranges are those of R46, and the configuration and the counters are stored together. -/
theorem sourceConfigStoresTheValuesGiven : Obligations.SourceConfigStoresTheValuesGiven := by
  intro n tag a s hacc
  rw [exec_sourceConfig_of_accepts hacc]
  refine ⟨fun i hi hargs => ?_, fun h => ?_⟩
  · have ⟨_, _, _, _, _, hadHoc⟩ := hargs
    simp only [hi, indexOf_val, (sourceArgsInRange_iff a).mpr hargs, if_true, ← SourceConfig.withArgs_eq _ hadHoc]
    rfl
  · split
    · rfl
    · next i hi =>
      rcases h with h | h
      · rw [indexOf_of_le h] at hi
        cases hi
      · rw [if_neg fun hin => h ((sourceArgsInRange_iff a).mp hin)]

end Sys2Proof.Machine
end

section
/-! SUPPORT. Links that go down and recover (R23, R44, R45), and the line-period and fade timers (R35 to R38, R68). -/

namespace Sys2Proof.Machine

/-! ### Link loss (R23, R44) -/

section Loss
variable {s : State} {i : SourceId}

theorem Source.ringAtLoss_eq (x : Source) :
    x.ringAtLoss = if x.binding.isSome = true ∧ x.ring.all (fun r => !r.isMarker) = true then [.marker .lost]
      else x.ring.filter RingRecord.isMarker := by
  have hnone : (x.ring.filter RingRecord.isMarker).isEmpty = x.ring.all (fun r => !r.isMarker) := by
    rw [Bool.eq_iff_iff, List.isEmpty_iff, List.filter_eq_nil_iff, List.all_eq_true]
    simp
  simp only [Source.ringAtLoss, hnone, Bool.and_eq_true]

theorem State.loseLink_eq (s : State) (i : SourceId) (detail : Nat) :
    s.loseLink i detail = (s.setSource i (s.source i).lose).logError
      { kind := .linkLost, origin := .source i, frame := (s.source i).binding.map StreamBinding.frame, row := none, pass := none
        detail := detail } := rfl

/-- The report of a failed check (R23, R128). -/
def Source.checkReport (x : Source) (i : SourceId) (detail : Nat) : ErrorReport :=
  { kind := .linkCheck, origin := .source i, frame := x.binding.map StreamBinding.frame, row := none, pass := none, detail := detail }

theorem State.failCheck_of_few (h : (s.source i).checkFailures < 3) (detail : Nat) :
    s.failCheck i detail = (s.setSource i { s.source i with checkFailures := (s.source i).checkFailures + 1 }).logError
      ((s.source i).checkReport i detail) := by
  have hcount : stickyNext 4 (s.source i).checkFailures = (s.source i).checkFailures + 1 := if_pos (by omega)
  have hfew : ¬ (s.source i).checkFailures + 1 = 4 := by omega
  unfold State.failCheck
  simp only [State.modifySource_eq, hcount, State.logError_source, State.source_setSource_self]
  exact if_neg hfew

theorem State.failCheck_of_three (h : (s.source i).checkFailures = 3) (detail : Nat) :
    s.failCheck i detail = ((s.setSource i { (s.source i).lose with checkFailures := 4 }).logError
      ((s.source i).checkReport i detail)).logError
        { kind := .linkLost, origin := .source i, frame := (s.source i).binding.map StreamBinding.frame, row := none, pass := none
          detail := 2 } := by
  have hcount : stickyNext 4 (s.source i).checkFailures = 4 := by rw [h]; rfl
  unfold State.failCheck
  simp only [State.modifySource_eq, hcount, State.source_setSource_self, if_true, State.loseLink_eq,
    State.logError_setSource, State.setSource_setSource]
  rfl

end Loss

/-! ### Recovery (R45) -/

/-- The record that a command brings, whatever it is, is met by the state of its source first (R22, R45). -/
theorem exec_of_recordSource {c : Instr} {i : SourceId} (h : recordSource c = some i) (s : State) :
    ∃ take : State → State, exec c s = .next (s.record i take) := by
  cases c
  case start j f d r => cases h; exact ⟨_, rfl⟩
  case phase j q p => cases h; exact ⟨_, rfl⟩
  case image j q k w p => cases h; exact ⟨_, rfl⟩
  case stop j => cases h; exact ⟨_, rfl⟩
  case drop j => cases h; exact ⟨_, rfl⟩
  case resume j => cases h; exact ⟨_, rfl⟩
  case idle j => cases h; exact ⟨_, rfl⟩
  all_goals cases h

theorem State.record_of_linkDown {s : State} {i : SourceId} (r : s.atRest) (h : (s.source i).state = .linkDown)
    (hheld : (s.source i).held = none) (take : State → State) : s.record i take = s.setSource i (s.source i).recover := by
  have hfree : ¬ (s.source i).recover.startWaits := by
    have hnone : (s.source i).recover.held = none := by
      unfold Source.recover
      split <;> exact hheld
    rintro ⟨hwaits, -⟩
    rw [hnone] at hwaits
    cases hwaits
  unfold State.record
  rw [if_pos h, State.modifySource_eq, State.closeEvent_of_atRest (State.setSource_atRest r hfree)]

/-- Settles O26: the fourth failed check and 2 s of silence take the link down alike, and a record in LINK_DOWN only counts. -/
theorem linkIsLostAndRecovers : Obligations.LinkIsLostAndRecovers := by
  intro i s x ring down check lost
  have hlose : x.lose = down := by
    rw [Source.lose, Source.ringAtLoss_eq]
    rfl
  have hcheck : ∀ cause, x.checkReport i (checkDetail cause) = check cause := fun cause => by cases cause <;> rfl
  have hrecord : ∀ c, recordSource c = some i → s.atRest → x.state = .linkDown → x.held = none →
      exec c s = .next (s.setSource i x.recover) := fun c hc r hl hheld => by
    obtain ⟨take, hexec⟩ := exec_of_recordSource hc s
    rw [hexec, State.record_of_linkDown r hl hheld]
  refine ⟨fun cause hl hfew => ?_, fun cause hl hthree => ?_, fun cause hl => congrArg Host.Outcome.next (if_pos hl),
    fun ht hl => ?_, fun c hc r hl hheld hfew => ?_, fun c hc r hl hheld htwo => ?_⟩
  · rw [← hcheck]
    exact congrArg Host.Outcome.next ((if_neg hl).trans (State.failCheck_of_few hfew _))
  · rw [← hcheck, ← hlose]
    exact congrArg Host.Outcome.next ((if_neg hl).trans (State.failCheck_of_three hthree _))
  · rw [← hlose]
    exact congrArg Host.Outcome.next (if_pos ⟨ht, hl⟩)
  · rw [hrecord c hc r hl hheld, Source.recover, if_pos (by omega)]
  · rw [hrecord c hc r hl hheld, Source.recover, if_neg (by omega)]

/-! ### The line-period timer (R35, R36, R68) -/

section Missed
variable {s : State} {i : SourceId} {b : StreamBinding} {first expected : Nat}

/-- A row marked missed is one of the frame's map, and nothing else has changed (R68). -/
theorem State.markMissed_eq (s : State) (b : StreamBinding) (first expected : Nat) :
    s.markMissed b first expected = { s with frames := (s.markMissed b first expected).frames } := by
  unfold State.markMissed
  split
  · rfl
  · split
    · rfl
    · split
      · unfold State.setRow
        split <;> rfl
      · rfl

theorem State.setRow_of_rowEntry {f : FrameId} {row : Nat} {old : RowEntry} (h : s.rowEntry f row = some old) (e : RowEntry) :
    s.setRow f row e
      = s.setFrame f { (s.frame f).recount old.state e.state with rowMap := (s.frame f).rowMap.set row e } := by
  simp only [State.setRow, h]
  rfl

theorem State.markMissed_of_none (h : rowOfSequence b.geometry first expected = none) : s.markMissed b first expected = s := by
  simp only [State.markMissed, h]

theorem State.markMissed_of_due {row : Nat} {e : RowEntry} (h : rowOfSequence b.geometry first expected = some row)
    (he : s.rowEntry b.frame row = some e) (hempty : e.state = .empty) (hno : e.inFlight = .no) :
    s.markMissed b first expected = s.setFrame b.frame { s.frame b.frame with
      missed := (s.frame b.frame).missed + 1
      rowMap := (s.frame b.frame).rowMap.set row { e with state := .missed } } := by
  simp only [State.markMissed, h, he, hempty, hno, and_self, if_true, State.setRow_of_rowEntry he]
  rfl

theorem State.markMissed_of_other {row : Nat} {e : RowEntry} (h : rowOfSequence b.geometry first expected = some row)
    (he : s.rowEntry b.frame row = some e) (hother : e.state ≠ .empty ∨ e.inFlight ≠ .no) : s.markMissed b first expected = s := by
  simp only [State.markMissed, h, he]
  exact if_neg fun ⟨hempty, hno⟩ => hother.elim (· hempty) (· hno)

theorem State.markMissed_frame_of_ne {f : FrameId} (hf : f ≠ b.frame) : (s.markMissed b first expected).frame f = s.frame f := by
  unfold State.markMissed
  split
  · rfl
  · split
    · rfl
    · next row _ e he =>
      split
      · rw [State.setRow_of_rowEntry he, State.frame_setFrame, if_neg hf]
      · rfl

/-- The source whose line has not come (R35, R37). -/
def Source.missed (x : Source) (b : StreamBinding) (expected : Nat) : Source :=
  { x with
    expectedSeq := some ((expected + 1) % 4096), misses := stickyNext 255 x.misses, linePeriodTimer := some (periodMs b.geometry.rate)
    state := if x.config.missedLimit ≤ stickyNext 255 x.misses then .faded else x.state
    fadeTimer := if x.config.missedLimit ≤ stickyNext 255 x.misses then some (x.config.fadeLimit * 1000) else x.fadeTimer }

/-- GAP at the first miss, and FADE at the limit (R35, R37). -/
def State.tellMissed (s : State) (i : SourceId) (x : Source) (f : FrameId) (expected : Nat) : State :=
  let t := if x.misses = 0 then s.raise (.source i) (.gap f expected) else s
  if x.config.missedLimit ≤ stickyNext 255 x.misses then t.raise (.source i) (.fade (some f) true) else t

theorem State.missLine_eq (hb : (s.source i).binding = some b) (first expected : Nat) :
    s.missLine i b first expected
      = ((s.markMissed b first expected).setSource i ((s.source i).missed b expected)).tellMissed i (s.source i) b.frame expected := by
  have hsource : (s.markMissed b first expected).source i = s.source i := by rw [State.markMissed_eq]; rfl
  have hgap : ∀ (u : State) (y : Source), (if (s.source i).misses = 0 then (u.setSource i y).raise (.source i) (.gap b.frame expected)
      else u.setSource i y) = (if (s.source i).misses = 0 then u.raise (.source i) (.gap b.frame expected) else u).setSource i y := by
    intro u y
    split
    · exact State.raise_setSource u i y _ _
    · rfl
  unfold State.missLine State.tellMissed
  simp only [State.modifySource_eq, hsource, hgap, State.source_setSource_self]
  by_cases hlimit : (s.source i).config.missedLimit ≤ stickyNext 255 (s.source i).misses
  · rw [if_pos hlimit, if_pos hlimit, State.enterFaded_setSource, Source.missed, if_pos hlimit, if_pos hlimit, nextSeq]
    simp only [Source.boundFrame, hb, Option.map_some]
  · rw [if_neg hlimit, if_neg hlimit, Source.missed, if_neg hlimit, if_neg hlimit, nextSeq]

/-- The notices of a missed line change clients alone. -/
theorem State.tellMissed_eq (s : State) (i : SourceId) (x : Source) (f : FrameId) (expected : Nat) :
    s.tellMissed i x f expected = { s with clients := (s.tellMissed i x f expected).clients } := by
  have hraise : ∀ (u : State) (d : NoticeDetail), u = { s with clients := u.clients } →
      u.raise (.source i) d = { s with clients := (u.raise (.source i) d).clients } := fun u d hu => by
    rw [State.raise_eq, hu]
  have hgap : ∀ p : Prop, [Decidable p] → (if p then s.raise (.source i) (.gap f expected) else s)
      = { s with clients := (if p then s.raise (.source i) (.gap f expected) else s).clients } := fun p _ => by
    split
    · exact hraise s _ rfl
    · rfl
  unfold State.tellMissed
  dsimp only
  split
  · exact hraise _ _ (hgap _)
  · exact hgap _

theorem State.tellMissed_of_quiet {x : Source} (hmissed : x.misses ≠ 0) (hfew : stickyNext 255 x.misses < x.config.missedLimit)
    (f : FrameId) (expected : Nat) : s.tellMissed i x f expected = s := by
  rw [State.tellMissed, if_neg (Nat.not_le.mpr hfew), if_neg hmissed]

theorem State.tellMissed_gap {x : Source} (h : x.misses = 0) (f : FrameId) (expected : Nat) {n : ClientId}
    (hn : (s.client n).levels[(5 : Fin 16)] ≠ 0) : (s.tellMissed i x f expected).hasFiled n (.source i) (.gap f expected) := by
  have hfiled : (s.raise (.source i) (.gap f expected)).hasFiled n (.source i) (.gap f expected) := State.raise_hasFiled _ hn
  rw [State.tellMissed, if_pos h]
  split
  · exact hfiled.raise (.inl (show (5 : Fin 16) ≠ 6 by decide))
  · exact hfiled

theorem State.tellMissed_fade {x : Source} (h : x.config.missedLimit ≤ stickyNext 255 x.misses) (f : FrameId) (expected : Nat)
    {n : ClientId} (hn : (s.client n).levels[(6 : Fin 16)] ≠ 0) :
    (s.tellMissed i x f expected).hasFiled n (.source i) (.fade (some f) true) := by
  rw [State.tellMissed, if_pos h]
  refine State.raise_hasFiled _ ?_
  have hlevels : ((if x.misses = 0 then s.raise (.source i) (.gap f expected) else s).client n).levels = (s.client n).levels := by
    split
    · rw [State.client_raise, NoticeClient.offer_levels]
    · rfl
  exact fun hzero => hn ((congrArg (fun l : Vector Nat 16 => l[(6 : Fin 16)]) hlevels).symm.trans hzero)

/-- A write of one source, after a change of frames alone. -/
theorem State.setSource_of_frames {u : State} (h : u = { s with frames := u.frames }) (i : SourceId) (x : Source) :
    u.setSource i x = { s with frames := (u.setSource i x).frames, sources := (u.setSource i x).sources } := by
  rw [h]
  rfl

end Missed

theorem exec_linePeriodExpiry {s : State} {i : SourceId} {b : StreamBinding} {k first expected : Nat}
    (ht : (s.source i).linePeriodTimer = some k) (hb : (s.source i).binding = some b) (hfirst : (s.source i).firstSeq = some first)
    (hexpected : (s.source i).expectedSeq = some expected) :
    exec (.linePeriodExpiry i) s = .next (if (s.source i).state = .receiving then s.missLine i b first expected
      else if (s.source i).state = .faded then s.skipLine i b expected else s) := by
  show execLinePeriodExpiry i s = _
  simp only [execLinePeriodExpiry, ht, hb, hfirst, hexpected]

/-- The row of a sequence number, counted in the integers modulo 4096 (R54). -/
theorem rowOfSequence_eq (g : Geometry) (first sequence : Nat) :
    rowOfSequence g first sequence =
      let d := (((sequence : Int) - first) % 4096).toNat
      if d < g.rows then some (match g.direction with | .down => d | .up => g.rows - 1 - d) else none := by
  have hdistance : (((sequence : Int) - first) % 4096).toNat = seqDistance first sequence := by rw [← seqDistance_eq]; rfl
  rw [hdistance]
  unfold rowOfSequence
  cases g.direction <;> rfl

/-- Settles O27: the row due is marked, the miss counted and told of, and at the limit the stream fades. -/
theorem silentLinesAreMissedAndFadesEnd : Obligations.SilentLinesAreMissedAndFadesEnd := by
  refine ⟨fun i b k first expected s => ?_, fun i s => ?_, fun g first sequence _ _ => rowOfSequence_eq g first sequence⟩
  · intro x ht hb hfirst hexpected
    have hexec := exec_linePeriodExpiry (s := s) ht hb hfirst hexpected
    refine ⟨fun hreceiving => ?_, fun hfaded => ?_⟩
    · rw [if_pos hreceiving, State.missLine_eq hb] at hexec
      let u := (s.markMissed b first expected).setSource i (x.missed b expected)
      let t := u.tellMissed i x b.frame expected
      have hmarked := s.markMissed_eq b first expected
      have htold : t = { u with clients := t.clients } := u.tellMissed_eq i x b.frame expected
      have hframe : ∀ f, t.frame f = (s.markMissed b first expected).frame f := fun f => by rw [htold]; rfl
      have hsource : ∀ j, t.source j = u.source j := fun j => by rw [htold]; rfl
      have hclients : u.clients = s.clients := by
        show (s.markMissed b first expected).clients = _
        rw [hmarked]
      have hclient : ∀ n, u.client n = s.client n := fun n => congrArg (fun l : Vector NoticeClient 3 => l[n.val]) hclients
      refine ⟨t, hexec, ?_, fun j hj => ?_, ?_, fun f hf => (hframe f).trans (State.markMissed_frame_of_ne hf),
        fun row e hrow he hempty hno => ?_, fun row e hrow he hne => ?_, fun hrow => ?_, fun hmissed hfew => ?_,
        fun n => ⟨fun hmissed hn => ?_, fun hlimit hn => ?_⟩⟩
      · have honly : u = { s with frames := u.frames, sources := u.sources } := State.setSource_of_frames hmarked i _
        rw [htold, honly]
      · rw [hsource, State.source_setSource, if_neg hj, hmarked]
        rfl
      · rw [hsource, State.source_setSource_self, Source.missed, show x.state = .receiving from hreceiving]
      · rw [hframe, State.markMissed_of_due hrow he hempty hno, State.frame_setFrame_self]
      · rw [hframe, State.markMissed_of_other hrow he hne]
      · rw [hframe, State.markMissed_of_none hrow]
      · rw [show t = u from State.tellMissed_of_quiet hmissed hfew _ _]
        exact hclients
      · exact State.tellMissed_gap hmissed b.frame expected (by rw [hclient]; exact hn)
      · exact State.tellMissed_fade hlimit b.frame expected (by rw [hclient]; exact hn)
    · rw [hexec, if_neg (by rw [show (s.source i).state = .faded from hfaded]; decide), if_pos hfaded]
      rfl
  · intro x hfaded htimer
    refine (congrArg Host.Outcome.next (if_pos (c := (s.source i).state = .faded ∧ (s.source i).fadeTimer.isSome = true)
      ⟨hfaded, htimer⟩)).trans ?_
    rw [State.modifySource_eq, Source.endStream_eq]

end Sys2Proof.Machine
end

section
/-! SUPPORT. The blocks of a response (R180, R182) and the queries (R47, R75, R97, R179). -/

namespace Sys2Proof.Machine

/-! ### Fields (R180) -/

theorem beBytes_one (n : Nat) : beBytes 1 n = [byteOf n] := by simp [beBytes]
theorem beBytes_two (n : Nat) : beBytes 2 n = [byteOf (n / 256), byteOf n] := by simp [beBytes]
theorem beBytes_three (n : Nat) : beBytes 3 n = [byteOf (n / 65536), byteOf (n / 256), byteOf n] := by simp [beBytes]

theorem length_beBytes (len n : Nat) : (beBytes len n).length = len := by
  induction len with
  | zero => rfl
  | succ len ih => rw [beBytes, List.length_cons, ih]

theorem optBytes_eq (len : Nat) (x : Option Nat) : optBytes len x = sentIn len (x.map (beBytes len)) := by
  cases x <;> rfl

theorem optBytes_one (x : Option Nat) : optBytes 1 x = sentIn 1 (x.map fun n => [byteOf n]) := by
  rw [optBytes_eq, show beBytes 1 = fun n => [byteOf n] from funext beBytes_one]

/-- A field is as long with its value as without. -/
theorem length_sentIn {len : Nat} {x : Option (List Byte)} (h : ∀ l ∈ x, l.length = len) : (sentIn len x).length = len := by
  cases x with
  | none => exact List.length_replicate
  | some l => exact h l rfl

theorem length_sentIn_map {α : Type} {len : Nat} (x : Option α) {g : α → List Byte} (h : ∀ a, (g a).length = len) :
    (sentIn len (x.map g)).length = len :=
  length_sentIn fun l hl => by
    obtain ⟨a, -, rfl⟩ := Option.map_eq_some_iff.mp hl
    exact h a

theorem flagByte_eq (b : Bool) : flagByte b = sentYes b := rfl

theorem sentSet_cons (b : Bool) (l : List Bool) : sentSet (b :: l) = b.toNat + 2 * sentSet l := by
  unfold sentSet
  rw [List.length_cons, List.range_succ_eq_map, List.map_cons, List.sum_cons, List.map_map, ← List.sum_map_mul_left]
  congr 1
  · cases b <;> rfl
  · refine congrArg List.sum (List.map_congr_left fun k _ => ?_)
    simp only [Function.comp_apply, List.getD_cons_succ, Nat.succ_eq_add_one, Nat.pow_succ]
    split <;> omega

theorem setNat_eq (l : List Bool) : setNat l = sentSet l := by
  induction l with
  | nil => rfl
  | cons b l ih => rw [setNat, sentSet_cons, ih]

theorem Vector.toList_eq_map_finRange {n : Nat} (v : Vector Bool n) : v.toList = (List.finRange n).map (fun i => v[i]) := by
  refine List.ext_getElem (by simp) fun k _ _ => ?_
  simp

/-- The days of the week as a set (R180). -/
theorem days_byte (d : BitVec 7) : d.setWidth 8 = byteOf (sentSet ((List.finRange 7).map (fun k => d[k]))) := by
  revert d
  decide +kernel

/-! ### The blocks of R182 -/

theorem Source.bytes_eq (x : Source) : x.bytes = x.block := by
  have hbound : optBytes 1 (x.boundFrame.map Fin.val) ++ optBytes 1 x.boundPass
      = sentIn 2 (x.binding.map (fun b => [byteOf b.frame.val, byteOf b.pass])) := by
    unfold Source.boundFrame Source.boundPass
    cases x.binding with
    | none => rfl
    | some b => simp only [Option.map_some, optBytes, beBytes_one]; rfl
  unfold Source.bytes Source.block
  rw [List.append_assoc [byteOf x.state.code], hbound, optBytes_eq]
  simp only [List.append_assoc, List.cons_append, List.nil_append, flagByte_eq, Source.holdLine]

theorem Source.length_block (x : Source) : x.block.length = 28 := by
  have hbound : (sentIn 2 (x.binding.map (fun b => [byteOf b.frame.val, byteOf b.pass]))).length = 2 :=
    length_sentIn_map _ fun _ => rfl
  have hexpected : (sentIn 2 (x.expectedSeq.map (beBytes 2))).length = 2 := length_sentIn_map _ (length_beBytes 2)
  simp only [Source.block, List.length_append, List.length_cons, List.length_nil, length_beBytes, hbound, hexpected]

theorem EntryFields.bytes_eq (d : EntryFields) : d.bytes = d.block := by
  have hrepeat : optBytes 1 (d.repeatOf.map Fin.val) = [byteOf ((d.repeatOf.map Fin.val).getD 255)] := by
    cases d.repeatOf with
    | none => rfl
    | some e => exact beBytes_one _
  have hfrequencies : (List.range 4).flatMap (fun k => beBytes 3 (d.frequencies.getD k 0))
      = beBytes 3 (d.frequencies.getD 0 0) ++ (beBytes 3 (d.frequencies.getD 1 0) ++ (beBytes 3 (d.frequencies.getD 2 0)
        ++ beBytes 3 (d.frequencies.getD 3 0))) := by
    simp only [List.range, List.range.loop, List.flatMap_cons, List.flatMap_nil, List.append_nil]
  unfold EntryFields.bytes EntryFields.block
  rw [hrepeat, hfrequencies, days_byte]
  simp only [List.append_assoc, List.cons_append, List.nil_append]

theorem EntryFields.length_block (d : EntryFields) : d.block.length = 27 := by
  rw [← EntryFields.bytes_eq]
  have hrepeat : (optBytes 1 (d.repeatOf.map Fin.val)).length = 1 := by
    rw [optBytes_eq]
    exact length_sentIn_map _ (length_beBytes 1)
  simp only [EntryFields.bytes, List.length_append, List.length_cons, List.length_nil, length_beBytes, hrepeat]

theorem ScheduleEntry.bytes_eq (x : ScheduleEntry) : x.bytes = x.block := by
  unfold ScheduleEntry.bytes ScheduleEntry.block ScheduleEntry.code
  rw [optBytes_one, Option.map_map]
  cases hd : x.definition with
  | none => rfl
  | some p =>
    obtain ⟨m, d⟩ := p
    simp only [EntryFields.bytes_eq]
    cases m <;> rfl

theorem ScheduleEntry.length_block (x : ScheduleEntry) : x.block.length = 31 := by
  have hwriter : (sentIn 1 (x.writer.map (fun n => [byteOf n.val]))).length = 1 := length_sentIn_map _ fun _ => rfl
  have hfields : (sentIn 27 (x.definition.map (fun d => d.2.block))).length = 27 :=
    length_sentIn_map _ fun d => d.2.length_block
  simp only [ScheduleEntry.block, List.length_append, List.length_cons, List.length_nil, length_beBytes, hwriter, hfields]

theorem Frame.listBytes_eq (x : Frame) : x.listBytes = x.listBlock := by
  unfold Frame.listBytes Frame.listBlock
  rw [optBytes_one, Option.map_map]
  split
  · rfl
  · rfl

theorem Frame.length_listBlock (x : Frame) : x.listBlock.length = 9 := by
  have hentry : (sentIn 1 (x.entry.map (fun e => [byteOf e.val]))).length = 1 := length_sentIn_map _ fun _ => rfl
  have hfields : (sentIn 6 (if x.state = .free then none
      else some (sentIn 1 (x.entry.map (fun e => [byteOf e.val])) ++ beBytes 2 x.day ++ [byteOf x.pass]
        ++ beBytes 2 x.coverage))).length = 6 := by
    refine length_sentIn fun l hl => ?_
    split at hl
    · cases hl
    · cases hl
      simp only [List.length_append, List.length_cons, List.length_nil, length_beBytes, hentry]
  simp only [Frame.listBlock, List.length_append, List.length_cons, List.length_nil, length_beBytes, hfields]

theorem geometryBytes_eq (g : Option Geometry) : geometryBytes g = sentIn 5 (g.map (fun g =>
    [byteOf (drumCode g.drum), byteOf (rateCode g.rate), byteOf (directionCode g.direction)] ++ beBytes 2 g.rows)) := by
  cases g <;> rfl

theorem viewBytes_frameView (s : State) (f : FrameId) :
    viewBytes (s.frameView f) = sentIn 6 ((s.frame f).view.bind (fun v => (s.view v).map (fun y =>
      [byteOf v.val, byteOf y.generation, sentYes y.torn] ++ beBytes 2 y.held ++ [byteOf y.cursors]))) := by
  unfold State.frameView
  cases (s.frame f).view with
  | none => rfl
  | some v =>
    simp only [Option.bind_some]
    cases s.view v <;> rfl

theorem State.frameBytes_eq (s : State) (f : FrameId) : s.frameBytes f = s.frameBlock f := by
  have hsettled : optBytes 2 ((s.frame f).settledAt.map Prod.fst) ++ optBytes 3 ((s.frame f).settledAt.map Prod.snd)
      = sentIn 5 ((s.frame f).settledAt.map (fun p => beBytes 2 p.1 ++ beBytes 3 p.2)) := by
    cases (s.frame f).settledAt <;> rfl
  have hmosaic : optBytes 1 ((s.frame f).mosaic.map (fun m => m.1.val)) ++ optBytes 1 ((s.frame f).mosaic.map Prod.snd)
      = sentIn 2 ((s.frame f).mosaic.map (fun m => [byteOf m.1.val, byteOf m.2])) := by
    cases (s.frame f).mosaic with
    | none => rfl
    | some m => simp only [Option.map_some, optBytes, beBytes_one]; rfl
  have hentry : ∀ e : Option EntryId, optBytes 1 (e.map Fin.val) = sentIn 1 (e.map (fun e => [byteOf e.val])) := fun e => by
    rw [optBytes_one, Option.map_map]
    rfl
  unfold State.frameBytes State.frameBlock
  simp only [List.append_assoc, hentry, geometryBytes_eq, viewBytes_frameView, ← hsettled, ← hmosaic, PinSet.code, setNat_eq,
    Vector.toList_eq_map_finRange, flagByte_eq, List.cons_append, List.nil_append]

theorem State.length_frameBlock (s : State) (f : FrameId) (h : (s.frame f).title.length ≤ 32) : (s.frameBlock f).length = 74 := by
  have hentry : ∀ e : Option EntryId, (sentIn 1 (e.map (fun e => [byteOf e.val]))).length = 1 := fun e =>
    length_sentIn_map _ fun _ => rfl
  have hgeometry := length_sentIn_map (len := 5) (s.frame f).geometry (g := fun g =>
    [byteOf (drumCode g.drum), byteOf (rateCode g.rate), byteOf (directionCode g.direction)] ++ beBytes 2 g.rows)
    fun g => by simp only [List.length_append, List.length_cons, List.length_nil, length_beBytes]
  have hsettled := length_sentIn_map (len := 5) (s.frame f).settledAt (g := fun p => beBytes 2 p.1 ++ beBytes 3 p.2)
    fun p => by simp only [List.length_append, length_beBytes]
  have hview : (sentIn 6 ((s.frame f).view.bind (fun v => (s.view v).map (fun y =>
      [byteOf v.val, byteOf y.generation, sentYes y.torn] ++ beBytes 2 y.held ++ [byteOf y.cursors])))).length = 6 := by
    refine length_sentIn fun l hl => ?_
    obtain ⟨v, -, hl⟩ := Option.bind_eq_some_iff.mp hl
    obtain ⟨y, -, rfl⟩ := Option.map_eq_some_iff.mp hl
    simp only [List.length_append, List.length_cons, List.length_nil, length_beBytes]
  have hmosaic := length_sentIn_map (len := 2) (s.frame f).mosaic (g := fun m => [byteOf m.1.val, byteOf m.2]) fun _ => rfl
  unfold State.frameBlock
  simp only [List.length_append, List.length_cons, List.length_nil, length_beBytes, List.length_replicate, hentry, hgeometry,
    hsettled, hview, hmosaic]
  omega

/-! ### Groups (R97, R104, R182) -/

/-- The section's bytes in a group's block. -/
def State.sectionBlock (s : State) (y : MosaicSection) (top : Int) : List Byte :=
  [byteOf y.entry.val] ++ beBytes 2 y.nominal
    ++ sentIn 2 (y.frame.map (fun f => [byteOf f.val, byteOf (s.frame f).state.code]))
    ++ beBytes 2 top.toNat
    ++ (y.seam.map (fun m => [byteOf m.overlap, BitVec.ofInt 8 m.adjustment, byteOf m.state.code]
        ++ sentIn 1 (m.score.map (fun n => [byteOf n])))).getD [255#8, 128#8, 255#8, 255#8]

theorem State.sectionBytes_eq (s : State) (y : MosaicSection) (top : Int) : s.sectionBytes y top = s.sectionBlock y top := by
  have hframe : optBytes 1 (y.frame.map Fin.val) ++ optBytes 1 (y.frame.map (fun f => (s.frame f).state.code))
      = sentIn 2 (y.frame.map (fun f => [byteOf f.val, byteOf (s.frame f).state.code])) := by
    cases y.frame with
    | none => rfl
    | some f => simp only [Option.map_some, optBytes, beBytes_one]; rfl
  have hseam : optBytes 1 (y.seam.map Seam.overlap) ++ ([optSignedByte (y.seam.map Seam.adjustment)]
      ++ (optBytes 1 (y.seam.map (fun m => m.state.code)) ++ optBytes 1 (y.seam.bind Seam.score)))
      = (y.seam.map (fun m => [byteOf m.overlap, BitVec.ofInt 8 m.adjustment, byteOf m.state.code]
          ++ sentIn 1 (m.score.map (fun n => [byteOf n])))).getD [255#8, 128#8, 255#8, 255#8] := by
    cases y.seam with
    | none => rfl
    | some m =>
      simp only [Option.map_some, Option.bind_some, ← optBytes_one m.score, Option.getD_some]
      simp only [optBytes, beBytes_one, optSignedByte, signedByte, List.cons_append, List.nil_append]
  unfold State.sectionBytes State.sectionBlock
  rw [← hframe, ← hseam]
  simp only [List.append_assoc]

theorem State.length_sectionBlock (s : State) (y : MosaicSection) (top : Int) : (s.sectionBlock y top).length = 11 := by
  have hframe := length_sentIn_map (len := 2) y.frame (g := fun f => [byteOf f.val, byteOf (s.frame f).state.code]) fun _ => rfl
  have hseam : ((y.seam.map (fun m => [byteOf m.overlap, BitVec.ofInt 8 m.adjustment, byteOf m.state.code]
      ++ sentIn 1 (m.score.map (fun n => [byteOf n])))).getD [255#8, 128#8, 255#8, 255#8]).length = 4 := by
    cases y.seam with
    | none => rfl
    | some m =>
      have hscore := length_sentIn_map (len := 1) m.score (g := fun n => [byteOf n]) fun _ => rfl
      simp only [Option.map_some, Option.getD_some, List.length_append, List.length_cons, List.length_nil, hscore]
  simp only [State.sectionBlock, List.length_append, List.length_cons, List.length_nil, length_beBytes, hframe, hseam]

/-- The sections with their tops, laid from composite row `below` on (R104). -/
theorem State.flatMap_topsFrom (s : State) (l : List MosaicSection) (below : Int) (g : MosaicSection → Int → List Byte) :
    (l.zip (s.topsFrom below l)).flatMap (fun p => g p.1 p.2)
      = (List.range l.length).flatMap (fun k => (l[k]?).elim [] (fun y => g y (below + s.topOf l k))) := by
  induction l generalizing below with
  | nil => rfl
  | cons x l ih =>
    have htop : x.topBelow below = below + s.topOf (x :: l) 0 := by
      cases h : x.seam <;> simp [MosaicSection.topBelow, State.topOf, MosaicSection.offset, h]
      omega
    have hnext : ∀ k, x.topBelow below + s.sectionRows x + s.topOf l k = below + s.topOf (x :: l) (k + 1) := fun k => by
      rw [htop, s.sectionRows_eq]
      simp only [State.topOf, List.take_succ_cons, List.map_cons, List.sum_cons, List.take_zero, List.map_nil, List.sum_nil]
      omega
    rw [List.length_cons, List.range_succ_eq_map, List.flatMap_cons, State.topsFrom, List.zip_cons_cons, List.flatMap_cons, ih,
      List.flatMap_map, htop]
    congr 1
    simp only [← htop, hnext, Nat.succ_eq_add_one, List.getElem?_cons_succ]

theorem State.groupBytes_eq (s : State) (g : GroupId) : s.groupBytes g = s.groupBlock g := by
  have hdrum : optBytes 1 ((s.group g).drum.map drumCode) = sentIn 1 ((s.group g).drum.map (fun d => [byteOf (drumCode d)])) := by
    rw [optBytes_one, Option.map_map]
    rfl
  have hsections := s.flatMap_topsFrom (s.group g).sections 0 s.sectionBlock
  simp only [Int.zero_add] at hsections
  unfold State.groupBytes State.groupBlock State.tops
  simp only [hdrum, State.sectionBytes_eq, hsections]
  rfl

theorem State.length_groupBlock (s : State) (g : GroupId) :
    (s.groupBlock g).length = 7 + 11 * (s.group g).sections.length := by
  have hdrum := length_sentIn_map (len := 1) (s.group g).drum (g := fun d => [byteOf (drumCode d)]) fun _ => rfl
  have hsections : ∀ (l : List MosaicSection) (tops : List Int), tops.length = l.length →
      ((l.zip tops).flatMap (fun p => s.sectionBlock p.1 p.2)).length = 11 * l.length := by
    intro l
    induction l with
    | nil => exact fun _ _ => rfl
    | cons x l ih =>
      intro tops htops
      obtain ⟨top, tops, rfl⟩ := List.exists_cons_of_length_eq_add_one htops
      rw [List.zip_cons_cons, List.flatMap_cons, List.length_append, s.length_sectionBlock,
        ih tops (Nat.succ.inj htops), List.length_cons]
      omega
  have htops : ∀ (l : List MosaicSection) (below : Int), (s.topsFrom below l).length = l.length := by
    intro l
    induction l with
    | nil => exact fun _ => rfl
    | cons x l ih => exact fun below => congrArg (· + 1) (ih _)
  rw [← State.groupBytes_eq]
  simp only [State.groupBytes, State.sectionBytes_eq, List.length_append, List.length_cons, List.length_nil, length_beBytes,
    State.tops, hsections _ _ (htops _ _), optBytes_one, Option.map_map]
  have hdrum' : (sentIn 1 ((s.group g).drum.map ((fun n => [byteOf n]) ∘ drumCode))).length = 1 := hdrum
  rw [hdrum']

/-! ### Notices, errors and rows (R50, R128, R167, R182) -/

theorem NoticeDetail.kindCode_eq (d : NoticeDetail) : d.kindCode = d.block.1 := by cases d <;> rfl

theorem NoticeDetail.bytes_eq (d : NoticeDetail) : d.bytes = d.block.2 := by
  cases d with
  | expectedLapsed e => cases e <;> simp [NoticeDetail.bytes, NoticeDetail.block, optBytes, beBytes_one, absentBytes, byteOf]
  | fade f misses => cases f <;> simp [NoticeDetail.bytes, NoticeDetail.block, optBytes, beBytes_one, absentBytes, byteOf, flagByte_eq]
  | gap f q => simp [NoticeDetail.bytes, NoticeDetail.block, beBytes_two]
  | viewTorn v r => simp [NoticeDetail.bytes, NoticeDetail.block, beBytes_two]
  | mosaicJoined height weak => simp [NoticeDetail.bytes, NoticeDetail.block, beBytes_two]
  | cursorLostFrame c f cause => cases cause <;> rfl
  | cursorLostGroup c g cause => cases cause <;> rfl
  | frameBound i k => cases k <;> rfl
  | sourceEnd f p k => cases k <;> rfl
  | mosaicStale k cause => cases cause <;> rfl
  | errorLogged k filing => cases filing <;> rfl
  | scheduleChanged e op => cases op <;> rfl
  | passSettled | frameEvicted | frameFaulted | unscheduled | relay => rfl

theorem NoticeDetail.length_block (d : NoticeDetail) : d.block.2.length = 4 := by
  cases d <;> simp [NoticeDetail.block, beBytes_two]

theorem NoticePair.bytes_eq (p : NoticePair) : p.bytes = p.block := by
  unfold NoticePair.bytes NoticePair.block
  rw [NoticeDetail.kindCode_eq, NoticeDetail.bytes_eq]
  rfl

theorem NoticePair.length_block (p : NoticePair) : p.block.length = 8 := by
  simp only [NoticePair.block, List.length_append, List.length_cons, List.length_nil, NoticeDetail.length_block]

theorem ErrorRecord.bytes_eq (r : ErrorRecord) : r.bytes = r.block := by
  unfold ErrorRecord.bytes ErrorRecord.block
  simp only [optBytes_one, optBytes_eq 2, Option.map_map, flagByte_eq, ErrorKind.isAbort, Origin.bytes, List.append_assoc,
    List.cons_append, List.nil_append]
  rfl

theorem ErrorRecord.length_block (r : ErrorRecord) : r.block.length = 17 := by
  have hframe := length_sentIn_map (len := 1) r.frame (g := fun f => [byteOf f.val]) fun _ => rfl
  have hrow := length_sentIn_map (len := 2) r.row (g := beBytes 2) (length_beBytes 2)
  have hpass := length_sentIn_map (len := 1) r.pass (g := fun n => [byteOf n]) fun _ => rfl
  simp only [ErrorRecord.block, List.length_append, List.length_cons, List.length_nil, length_beBytes, hframe, hrow, hpass]

theorem LineInfo.bytes_eq (l : LineInfo) : lineInfoBytes l = [byteOf l.source.val, byteOf l.pass, byteOf l.quality,
    BitVec.ofInt 8 l.rotation, byteOf (sentSet [l.flags.skewed, l.flags.unphased, l.flags.faded])] := by
  rw [lineInfoBytes, LineFlags.code, setNat_eq]
  rfl

theorem RowEntry.report_eq (e : RowEntry) : e.report = e.block := by
  have hflight : [flagByte (e.inFlight != .no)] ++ optBytes 1 e.inFlight.pendingQuality =
      [match e.inFlight with | .no => 0#8 | .write _ => 1#8 | .copy => 1#8,
        match e.inFlight with | .write (some l) => byteOf l.quality | .write none => 255#8 | .copy => 255#8 | .no => 255#8] := by
    cases e.inFlight with
    | no => rfl
    | copy => rfl
    | write l =>
      cases l with
      | none => rfl
      | some l => simp only [InFlight.pendingQuality, optBytes, beBytes_one]; rfl
  unfold RowEntry.report RowEntry.block
  rw [List.append_assoc _ [flagByte _], hflight]
  cases e.state <;> simp only [LineInfo.bytes_eq, noLineBytes, optBytes, beBytes_one] <;> rfl

theorem namingBytes_eq (x : Option Naming) : namingBytes x = namingBlock x := by cases x <;> rfl

theorem RowItem.bytes_eq (i : RowItem) : i.bytes = i.block := by
  rw [RowItem.bytes, RowItem.block, namingBytes_eq]

/-! ### The queries (R47, R75, R97, R179) -/

section Queries
variable {s : State} {n : ClientId}

theorem exec_sourceStatus (h : s.accepts n [.read]) (tag number : Nat) :
    exec (.sourceStatus n tag number) s = .next (match indexOf 3 number with
      | none => s.withAnswer n tag .badRequest []
      | some i => s.withAnswer n tag .ok (s.source i).bytes) := by
  refine congrArg Host.Outcome.next ((State.request_of_accepts h tag _).trans ?_)
  cases indexOf 3 number <;> rfl

theorem exec_frameInfo (h : s.accepts n [.read]) (tag number : Nat) :
    exec (.frameInfo n tag number) s = .next (match indexOf 24 number with
      | none => s.withAnswer n tag .badRequest []
      | some f => s.withAnswer n tag .ok (s.frameBytes f)) := by
  refine congrArg Host.Outcome.next ((State.request_of_accepts h tag _).trans ?_)
  cases indexOf 24 number <;> rfl

theorem exec_scheduleRead (h : s.accepts n [.read]) (tag number : Nat) :
    exec (.scheduleRead n tag number) s = .next (match indexOf 64 number with
      | none => s.withAnswer n tag .badRequest []
      | some e => s.withAnswer n tag .ok (s.entryAt e).bytes) := by
  refine congrArg Host.Outcome.next ((State.request_of_accepts h tag _).trans ?_)
  cases indexOf 64 number <;> rfl

theorem exec_mosaicInfo (h : s.accepts n [.read]) (tag number : Nat) :
    exec (.mosaicInfo n tag number) s = .next (match indexOf 8 number with
      | none => s.withAnswer n tag .badRequest []
      | some g => s.withAnswer n tag .ok (s.groupBytes g)) := by
  refine congrArg Host.Outcome.next ((State.request_of_accepts h tag _).trans ?_)
  cases indexOf 8 number with
  | none => rfl
  | some g =>
    have hblock : (s.beginCommand n tag).groupBlock g = s.groupBlock g := rfl
    simp only [State.groupBytes_eq, hblock]
    rfl

theorem exec_frameList (h : s.accepts n [.read]) (tag : Nat) :
    exec (.frameList n tag) s
      = .next (s.withAnswer n tag .ok ((List.finRange 24).flatMap (fun f : FrameId => (s.frame f).listBlock))) := by
  have hlist : ((List.finRange 24).flatMap (fun f : FrameId => (s.frame f).listBlock))
      = allFrames.flatMap (fun f => (s.frame f).listBytes) := by
    rw [show allFrames = List.finRange 24 by decide]
    exact congrArg (List.finRange 24).flatMap (funext fun f => ((s.frame f).listBytes_eq).symm)
  rw [hlist]
  exact congrArg Host.Outcome.next (State.request_of_accepts h tag _)

theorem length_frameList (s : State) : ((List.finRange 24).flatMap (fun f : FrameId => (s.frame f).listBlock)).length = 216 := by
  rw [List.length_flatMap]
  simp only [Frame.length_listBlock]
  decide

theorem exec_getInfo (h : s.accepts n []) (tag : Nat) :
    exec (.getInfo n tag) s = .next (s.withAnswer n tag .ok ([0#8, 1#8, 1#8, 84#8, 1#8, byteOf n.val, (s.port n).mask,
      if s.clock.isSet then 1#8 else 0#8, 24#8, 64#8, 4#8, 2#8, 0#8, 8#8, 3#8, 6#8, 8#8])) := by
  have hmask : ((s.beginCommand n tag).port n).mask = (s.port n).mask := by
    rw [State.beginCommand, State.port_setPort_self]
  have hinfo : (s.beginCommand n tag).infoBytes n = [0#8, 1#8, 1#8, 84#8, 1#8, byteOf n.val, (s.port n).mask,
      if s.clock.isSet then 1#8 else 0#8, 24#8, 64#8, 4#8, 2#8, 0#8, 8#8, 3#8, 6#8, 8#8] := by
    rw [State.infoBytes, hmask]
    rfl
  refine congrArg Host.Outcome.next ((State.request_of_accepts h tag _).trans ?_)
  rw [hinfo]
  rfl

end Queries

/-- Settles O11: each block is the block of R182, and a query changes nothing but its port. -/
theorem queriesReportTheRecords : Obligations.QueriesReportTheRecords := by
  refine ⟨fun n tag s h => exec_getInfo h tag, fun n tag s h => ?_,
    fun s f e g => ⟨s.frameBytes_eq f, ScheduleEntry.bytes_eq _, s.groupBytes_eq g⟩,
    fun p r => ⟨p.bytes_eq, r.bytes_eq, p.detail.kindCode_eq, p.detail.bytes_eq, p.length_block, r.length_block⟩,
    fun e x i => ⟨e.report_eq, namingBytes_eq x, i.bytes_eq⟩, fun k => ⟨rfl, beBytes_two k, beBytes_three k⟩,
    rfl, rfl, rfl, rfl, rfl, rfl, rfl, rfl, rfl, fun _ => rfl, fun _ => rfl, fun _ => rfl, fun _ => rfl, rfl⟩
  refine ⟨fun i => ⟨?_, Source.length_block _⟩, fun k hk => ?_, exec_frameList h tag, length_frameList s,
    fun f => ⟨?_, s.length_frameBlock f⟩, fun k hk => ?_, fun e => ⟨?_, ScheduleEntry.length_block _⟩, fun k hk => ?_,
    fun g => ⟨?_, s.length_groupBlock g⟩, fun k hk => ?_⟩
  · simp only [exec_sourceStatus h, indexOf_val, Source.bytes_eq]
  · rw [exec_sourceStatus h, indexOf_of_le hk]
  · simp only [exec_frameInfo h, indexOf_val, State.frameBytes_eq]
  · rw [exec_frameInfo h, indexOf_of_le hk]
  · simp only [exec_scheduleRead h, indexOf_val, ScheduleEntry.bytes_eq]
  · rw [exec_scheduleRead h, indexOf_of_le hk]
  · simp only [exec_mosaicInfo h, indexOf_val, State.groupBytes_eq]
  · rw [exec_mosaicInfo h, indexOf_of_le hk]

end Sys2Proof.Machine
end

section
/-! SUPPORT. What only the sources' own events read: a binding, the search and the read commands go on alike whatever the sources
hold. -/

namespace Sys2Proof.Machine

/-- The state with other sources. -/
def State.withSources (s : State) (v : Vector Source 3) : State := { s with sources := v }

section WithSources
variable (v : Vector Source 3)

theorem State.withSources_ite {p : Prop} [Decidable p] (s t : State) :
    (if p then s.withSources v else t.withSources v) = (if p then s else t).withSources v :=
  (apply_ite (fun u : State => u.withSources v) p s t).symm

theorem foldl_withSources {α : Type} {g : State → α → State} (hg : ∀ s a, g (s.withSources v) a = (g s a).withSources v) :
    ∀ (l : List α) (s : State), l.foldl g (s.withSources v) = (l.foldl g s).withSources v
  | [], _ => rfl
  | a :: l, s => by rw [List.foldl_cons, List.foldl_cons, hg, foldl_withSources hg l]

/-! ### Tables, notices and errors -/

theorem State.modifyFrame_withSources (s : State) (f : FrameId) (g : Frame → Frame) :
    (s.withSources v).modifyFrame f g = (s.modifyFrame f g).withSources v := rfl
theorem State.modifyGroup_withSources (s : State) (k : GroupId) (g : Group → Group) :
    (s.withSources v).modifyGroup k g = (s.modifyGroup k g).withSources v := rfl
theorem State.modifyCursor_withSources (s : State) (c : CursorId) (g : Cursor → Cursor) :
    (s.withSources v).modifyCursor c g = (s.modifyCursor c g).withSources v := rfl
theorem State.setView_withSources (s : State) (w : ViewId) (x : Option View) :
    (s.withSources v).setView w x = (s.setView w x).withSources v := rfl
theorem State.setHolder_withSources (s : State) (h : ReadHolder) (x : Option ReadRequest) :
    (s.withSources v).setHolder h x = (s.setHolder h x).withSources v := by cases h <;> rfl
theorem State.holder_withSources (s : State) (h : ReadHolder) : (s.withSources v).holder h = s.holder h := by cases h <;> rfl
theorem State.modifyHolder_withSources (s : State) (h : ReadHolder) (g : ReadRequest → ReadRequest) :
    (s.withSources v).modifyHolder h g = (s.modifyHolder h g).withSources v := by cases h <;> rfl
theorem State.raise_withSources (s : State) (o : Origin) (d : NoticeDetail) :
    (s.withSources v).raise o d = (s.raise o d).withSources v := by
  rw [State.raise_eq, State.raise_eq]
  rfl
theorem State.answer_withSources (s : State) (n : ClientId) (st : Status) (b : List Byte) :
    (s.withSources v).answer n st b = (s.answer n st b).withSources v := rfl

theorem State.logError_withSources (s : State) (e : ErrorReport) : (s.withSources v).logError e = (s.logError e).withSources v := by
  have hqueued : (s.withSources v).enqueueError e false = (s.enqueueError e false).withSources v := by
    unfold State.enqueueError
    rw [show (s.withSources v).errors = s.errors from rfl]
    split <;> rfl
  rw [State.logError, State.fileError, hqueued, State.raise_withSources]
  rfl

/-! ### Cursors and views (R92, R154) -/

theorem State.cutJob_withSources (s : State) (c : CursorId) (st : Status) :
    (s.withSources v).cutJob c st = (s.cutJob c st).withSources v := by
  unfold State.cutJob
  rw [show (s.withSources v).cursor c = s.cursor c from rfl]
  split <;> rfl

theorem State.loseCursor_withSources (s : State) (c : CursorId) (k : LostCause) :
    (s.withSources v).loseCursor c k = (s.loseCursor c k).withSources v := by
  have hunpin : (s.withSources v).unpinCursor c = (s.unpinCursor c).withSources v := rfl
  unfold State.loseCursor
  rw [show (s.withSources v).cursor c = s.cursor c from rfl]
  split
  · rfl
  · simp only [hunpin, State.cutJob_withSources, State.abandonRead, State.modifyHolder_withSources, State.modifyCursor_withSources,
      State.raise_withSources]

theorem State.loseCursors_withSources (s : State) (p : Cursor → Bool) (k : LostCause) :
    (s.withSources v).loseCursors p k = (s.loseCursors p k).withSources v :=
  foldl_withSources v (fun s c => by
    rw [State.loseCursor_withSources, State.withSources_ite, show (s.withSources v).cursor c = s.cursor c from rfl]) _ s

theorem State.releaseView_withSources (s : State) (f : FrameId) (k : LostCause) :
    (s.withSources v).releaseView f k = (s.releaseView f k).withSources v := by
  have hmarked : (s.withSources v).markViewGone f = (s.markViewGone f).withSources v :=
    foldl_withSources v (fun s h => s.modifyHolder_withSources v h _) _ s
  have hpool : ∀ (u : State) l, ({ u.withSources v with pool := l } : State) = ({ u with pool := l } : State).withSources v :=
    fun _ _ => rfl
  unfold State.releaseView
  rw [show (s.withSources v).frame f = s.frame f from rfl]
  split
  · rfl
  · simp only [hmarked, hpool, State.modifyFrame_withSources, State.loseCursors_withSources, State.setView_withSources]
    rfl

theorem State.openView_withSources (s : State) (f : FrameId) : (s.withSources v).openView f = (s.openView f).withSources v := by
  unfold State.openView
  rw [show (s.withSources v).freeView = s.freeView from rfl]
  split <;> rfl

/-! ### Groups and their sections (R98 to R106) -/

theorem State.modifySeam_withSources (s : State) (g : GroupId) (k : Nat) (h : Seam → Seam) :
    (s.withSources v).modifySeam g k h = (s.modifySeam g k h).withSources v := rfl

theorem State.resetSeam_withSources (s : State) (g : GroupId) (k : Nat) :
    (s.withSources v).resetSeam g k = (s.resetSeam g k).withSources v := by
  unfold State.resetSeam
  rw [show (s.withSources v).seam g k = s.seam g k from rfl]
  split
  · rfl
  · have habandon : (s.withSources v).abandonSearch = s.abandonSearch.withSources v := rfl
    rw [habandon, State.withSources_ite]
    rfl

theorem State.queueSeam_withSources (s : State) (g : GroupId) (k : Nat) :
    (s.withSources v).queueSeam g k = (s.queueSeam g k).withSources v := by
  unfold State.queueSeam
  rw [show (s.withSources v).seam g k = s.seam g k from rfl, show (s.withSources v).seamQueue = s.seamQueue from rfl]
  split
  · rfl
  · split
    · rfl
    · split <;> rfl

theorem State.admitWaiting_withSources (s : State) (g : GroupId) (k : Nat) :
    (s.withSources v).admitWaiting g k = (s.admitWaiting g k).withSources v := by
  unfold State.admitWaiting
  rw [show (s.withSources v).seam g k = s.seam g k from rfl, show (s.withSources v).seamQueue = s.seamQueue from rfl]
  split
  · rfl
  · split <;> rfl

theorem State.refillQueue_withSources (s : State) : (s.withSources v).refillQueue = s.refillQueue.withSources v :=
  foldl_withSources v (fun s g => foldl_withSources v (fun s k => s.admitWaiting_withSources v g k) _ s) _ s

theorem State.enterGroup_withSources (b s : State) (g : GroupId) (st : GroupState) :
    (b.withSources v).enterGroup (s.withSources v) g st = (b.enterGroup s g st).withSources v := rfl

theorem State.testJoined_withSources (b s : State) (g : GroupId) :
    (b.withSources v).testJoined (s.withSources v) g = (b.testJoined s g).withSources v := by
  unfold State.testJoined
  rw [show (s.withSources v).group g = s.group g from rfl, State.enterGroup_withSources, State.raise_withSources,
    State.withSources_ite]

theorem State.testJoining_withSources (b s : State) (g : GroupId) :
    (b.withSources v).testJoining (s.withSources v) g = (b.testJoining s g).withSources v := by
  have hsettled : (s.withSources v).sectionSettled = s.sectionSettled := rfl
  unfold State.testJoining
  simp only [show (s.withSources v).group g = s.group g from rfl, hsettled, State.enterGroup_withSources,
    foldl_withSources v (g := fun s k => s.queueSeam g k) (fun s k => s.queueSeam_withSources v g k), State.testJoined_withSources, State.withSources_ite]

theorem State.ungather_withSources (b s : State) (g : GroupId) (k : Nat) (c : StaleCause) :
    (b.withSources v).ungather (s.withSources v) g k c = (b.ungather s g k c).withSources v := by
  unfold State.ungather
  rw [show (s.withSources v).group g = s.group g from rfl]
  split
  · rfl
  · rw [State.enterGroup_withSources, State.raise_withSources]
  · rfl
  · rfl

theorem State.sectionRows_withSources (s : State) (x : MosaicSection) : (s.withSources v).sectionRows x = s.sectionRows x := rfl

theorem State.recomputeHeight_withSources (s : State) (g : GroupId) :
    (s.withSources v).recomputeHeight g = (s.recomputeHeight g).withSources v := by
  have hheight : ∀ (l : List MosaicSection) (below : Int), (s.withSources v).heightFrom below l = s.heightFrom below l := by
    intro l
    induction l with
    | nil => exact fun _ => rfl
    | cons x l ih => exact fun below => by simp only [State.heightFrom, ih, State.sectionRows_withSources]
  unfold State.recomputeHeight
  simp only [hheight]
  rfl

theorem State.sectionChanged_withSources (b s : State) (g : GroupId) (k : Nat) (c : StaleCause) :
    (b.withSources v).sectionChanged (s.withSources v) g k c = (b.sectionChanged s g k c).withSources v := by
  unfold State.sectionChanged
  simp only [State.resetSeam_withSources, State.refillQueue_withSources, State.recomputeHeight_withSources,
    State.ungather_withSources, State.testJoining_withSources]

theorem State.retainFor_withSources (s : State) (g : GroupId) (f : FrameId) (b : Bool) :
    (s.withSources v).retainFor g f b = (s.retainFor g f b).withSources v :=
  foldl_withSources v (fun s c => by
    rw [show (s.withSources v).cursor c = s.cursor c from rfl, State.modifyFrame_withSources, State.withSources_ite]) _ s

theorem State.clearMembership_withSources (s : State) (g : GroupId) (f : FrameId) :
    (s.withSources v).clearMembership g f = (s.clearMembership g f).withSources v := by
  rw [State.clearMembership, State.modifyFrame_withSources, State.retainFor_withSources]
  rfl

theorem State.setSectionFrame_withSources (s : State) (g : GroupId) (k : Nat) (f : Option FrameId) :
    (s.withSources v).setSectionFrame g k f = (s.setSectionFrame g k f).withSources v := rfl

theorem State.leaveSection_withSources (b s : State) (f : FrameId) (g : GroupId) (k : Nat) (c : StaleCause) :
    (b.withSources v).leaveSection (s.withSources v) f g k c = (b.leaveSection s f g k c).withSources v := by
  unfold State.leaveSection
  rw [State.setSectionFrame_withSources, State.clearMembership_withSources, State.sectionChanged_withSources]

theorem State.takeFrame_withSources (b s : State) (g : GroupId) (k : Nat) (f : FrameId) :
    (b.withSources v).takeFrame (s.withSources v) g k f = (b.takeFrame s g k f).withSources v := by
  have htaken : ∀ u : State, ((u.withSources v).setSectionFrame g k (some f)).modifyFrame f (fun x => { x with mosaic := some (g, k) })
      = ((u.setSectionFrame g k (some f)).modifyFrame f (fun x => { x with mosaic := some (g, k) })).withSources v := fun _ => rfl
  have hsection : ∀ u : State, (u.withSources v).sectionFrame g k = u.sectionFrame g k := fun _ => rfl
  unfold State.takeFrame
  rw [hsection]
  split
  · rfl
  · rw [show (s.withSources v).frame f = s.frame f from rfl]
    cases (s.frame f).mosaic with
    | none =>
      simp only [hsection]
      split <;> simp only [State.clearMembership_withSources, htaken, State.retainFor_withSources, State.sectionChanged_withSources]
    | some p =>
      simp only [State.leaveSection_withSources, hsection]
      split <;> simp only [State.clearMembership_withSources, htaken, State.retainFor_withSources, State.sectionChanged_withSources]

theorem State.tellBound_withSources (s : State) (f : FrameId) : (s.withSources v).tellBound f = (s.tellBound f).withSources v := by
  unfold State.tellBound
  rw [show (s.withSources v).frame f = s.frame f from rfl, show (s.withSources v).matchingSection = s.matchingSection from rfl]
  split
  · rw [show (s.withSources v).fitsSection = s.fitsSection from rfl, State.takeFrame_withSources, State.withSources_ite]
  · rfl

theorem State.tellNewPass_withSources (s : State) (f : FrameId) :
    (s.withSources v).tellNewPass f = (s.tellNewPass f).withSources v := by
  unfold State.tellNewPass
  rw [show (s.withSources v).frame f = s.frame f from rfl]
  split
  · exact State.sectionChanged_withSources v s s _ _ _
  · rfl

theorem State.tellGone_withSources (s : State) (f : FrameId) (c : StaleCause) :
    (s.withSources v).tellGone f c = (s.tellGone f c).withSources v := by
  unfold State.tellGone
  rw [show (s.withSources v).frame f = s.frame f from rfl]
  split
  · exact State.leaveSection_withSources v s s f _ _ _
  · rfl

/-! ### Frames (R11 to R14, R78, R85, R87) -/

theorem State.vanishReads_withSources (s : State) (f : FrameId) :
    (s.withSources v).vanishReads f = (s.vanishReads f).withSources v := by
  refine foldl_withSources v (fun s h => ?_) _ s
  have hretake : ∀ u : State, (u.withSources v).retakeRow h = (u.retakeRow h).withSources v := fun u => by cases h <;> rfl
  unfold State.markRead
  rw [State.holder_withSources]
  split
  · rfl
  · rw [State.setHolder_withSources, hretake, State.modifyHolder_withSources, State.withSources_ite, State.withSources_ite,
      State.withSources_ite]

theorem State.settleOvertaken_withSources (s : State) (f : FrameId) :
    (s.withSources v).settleOvertaken f = (s.settleOvertaken f).withSources v := by
  have hverdict : (s.withSources v).verdict f = s.verdict f := rfl
  unfold State.settleOvertaken
  simp only [show (s.withSources v).frame f = s.frame f from rfl, show (s.withSources v).clock = s.clock from rfl, hverdict,
    State.modifyFrame_withSources, State.raise_withSources, State.withSources_ite]

theorem State.newPass_withSources (s : State) (f : FrameId) (i : SourceId) (e : EntryId) (d : EntryFields) :
    (s.withSources v).newPass f i e d = (s.newPass f i e d).withSources v := by
  have hstale : ∀ u : State, (u.withSources v).staleOps f = (u.staleOps f).withSources v := fun _ => rfl
  unfold State.newPass
  simp only [State.settleOvertaken_withSources, hstale, State.releaseView_withSources, State.openView_withSources,
    State.modifyFrame_withSources, State.tellNewPass_withSources]

theorem State.takeExpected_withSources (s : State) (f : FrameId) (i : SourceId) (e : EntryId) (d : EntryFields) :
    (s.withSources v).takeExpected f i e d = (s.takeExpected f i e d).withSources v := by
  have hrefit : ∀ u : State, (u.withSources v).refitCursors f d.rows = (u.refitCursors f d.rows).withSources v := fun u => by
    refine foldl_withSources v (fun s c => ?_) _ u
    rw [show (s.withSources v).cursor c = s.cursor c from rfl]
    split
    · rw [State.modifyCursor_withSources, State.withSources_ite]
    · rfl
  unfold State.takeExpected
  simp only [show (s.withSources v).freshMap f d.rows = s.freshMap f d.rows from rfl, State.modifyFrame_withSources, hrefit]

theorem State.handOver_withSources (s : State) (old : Option FrameId) (f : FrameId) :
    (s.withSources v).handOver old f = (s.handOver old f).withSources v := by
  unfold State.handOver
  split
  · rfl
  · rw [State.modifyFrame_withSources, State.withSources_ite]

/-! ### The search and the read commands (R107, R144) -/

theorem State.recordSeam_withSources (s : State) (x : Search) :
    (s.withSources v).recordSeam x = (s.recordSeam x).withSources v := by
  have hidle : ∀ u : State, ({ u.withSources v with engine := none } : State) = ({ u with engine := none } : State).withSources v :=
    fun _ => rfl
  unfold State.recordSeam
  simp only [show (s.withSources v).storeConfig = s.storeConfig from rfl, State.modifySeam_withSources, hidle,
    State.recomputeHeight_withSources, State.testJoining_withSources, State.testJoined_withSources]

theorem State.runSearch_withSources (fuel : Nat) (s : State) :
    (s.withSources v).runSearch fuel = (s.runSearch fuel).withSources v := by
  induction fuel generalizing s with
  | zero => rfl
  | succ fuel ih =>
    unfold State.runSearch
    rw [show (s.withSources v).engine = s.engine from rfl]
    split
    · rfl
    · split
      · exact State.recordSeam_withSources v s _
      · next x _ _ f row _ =>
        rw [show (s.withSources v).rowEntry f row = s.rowEntry f row from rfl,
          show (s.withSources v).keepRow x none = (s.keepRow x none).withSources v from rfl, ih,
          show (s.withSources v).placeRead .seam f row x.drum none = (s.placeRead .seam f row x.drum none).withSources v from rfl,
          State.withSources_ite]

theorem State.carrySearch_withSources (s : State) : (s.withSources v).carrySearch = s.carrySearch.withSources v := by
  unfold State.carrySearch
  rw [show (s.withSources v).engine = s.engine from rfl, show (s.withSources v).seamHolder = s.seamHolder from rfl]
  split
  · rfl
  · rw [State.runSearch_withSources, State.withSources_ite]

theorem State.rowView_withSources (s : State) (a : Attachment) (row : Nat) : (s.withSources v).rowView a row = s.rowView a row := by
  have htops : ∀ (l : List MosaicSection) (below : Int), (s.withSources v).topsFrom below l = s.topsFrom below l := by
    intro l
    induction l with
    | nil => exact fun _ => rfl
    | cons x l ih => exact fun below => by simp only [State.topsFrom, ih, State.sectionRows_withSources]
  have hname : ∀ (c : Nat) (l : List (Nat × MosaicSection × Int)), (s.withSources v).nameRow c l = s.nameRow c l := by
    intro c l
    induction l with
    | nil => rfl
    | cons p l ih =>
      obtain ⟨k, x, top⟩ := p
      unfold State.nameRow
      simp only [ih]
      rfl
  have htranslate : ∀ g, (s.withSources v).translate g row = s.translate g row := fun g => by
    unfold State.translate State.tops
    simp only [htops, hname]
    rfl
  unfold State.rowView
  split
  · rfl
  · rfl
  · rw [htranslate]
    rfl

theorem State.runJob_withSources (fuel : Nat) (s : State) (c : CursorId) :
    (s.withSources v).runJob fuel c = (s.runJob fuel c).withSources v := by
  have hpark : ∀ (u : State) (j : ReadJob) (p : JobPhase), (u.withSources v).parkJob c j p = (u.parkJob c j p).withSources v :=
    fun _ _ _ => rfl
  induction fuel generalizing s with
  | zero => rfl
  | succ fuel ih =>
    unfold State.runJob
    rw [show (s.withSources v).cursor c = s.cursor c from rfl]
    split
    · next x j _ _ =>
      split
      · rfl
      · next row _ =>
        dsimp only
        rw [State.rowView_withSources]
        split
        · next hstops => rw [if_pos (show s.followStops x j.kind (s.rowView x.attachment row) = true from hstops)]; rfl
        · next hgoes =>
          rw [if_neg (show ¬ s.followStops x j.kind (s.rowView x.attachment row) = true from hgoes),
            show (s.withSources v).readFor = s.readFor from rfl]
          split
          · rw [hpark, ih]
          · rw [State.holder_withSources, hpark, State.placeRead, State.setHolder_withSources, hpark, State.withSources_ite]
            rfl
    · rfl
    · rfl

theorem State.resumeJobs_withSources (s : State) : (s.withSources v).resumeJobs = s.resumeJobs.withSources v := by
  refine foldl_withSources v (fun s c => ?_) _ s
  unfold State.resumeJob
  rw [show (s.withSources v).cursor c = s.cursor c from rfl]
  split
  · rw [State.holder_withSources, State.runJob_withSources, State.withSources_ite]
  · rfl

end WithSources

end Sys2Proof.Machine
end

section
/-! SUPPORT. A held START is taken as one that arrives, but for the silence timer and the check failures (R22, R26); the head that is
a STOP marker (R41, R53, R80). -/

namespace Sys2Proof.Machine

/-! ### The silence timer and the check failures bear on nothing else (R22) -/

section Retimed
variable (i : SourceId) (a : Option Nat) (b : Nat)

/-- The source with other values of what a good record sets (R22). -/
def Source.retimed (x : Source) : Source := { x with silenceTimer := a, checkFailures := b }

/-- The state with source `i` retimed. -/
def State.retimed (s : State) : State := s.setSource i ((s.source i).retimed a b)

theorem State.heard_eq_retimed (s : State) : s.heard i = s.retimed i (some 2000) 0 := rfl

theorem State.source_retimed (s : State) (j : SourceId) :
    (s.retimed i a b).source j = if j = i then (s.source i).retimed a b else s.source j := State.source_setSource s i j _

/-- What neither reads nor changes a source does not meet the retiming. -/
theorem State.retimed_of_withSources {g : State → State} (hg : ∀ v s, g (State.withSources s v) = (g s).withSources v) (s : State) :
    g (s.retimed i a b) = (g s).retimed i a b := by
  have hsame : g s = (g s).withSources s.sources := hg s.sources s
  have hsources : (g s).sources = s.sources := (congrArg State.sources hsame :)
  have hsource : (g s).source i = s.source i := by rw [State.source, hsources]; rfl
  rw [show s.retimed i a b = s.withSources (s.sources.set i.val ((s.source i).retimed a b)) from rfl, hg, ← hsources, ← hsource]
  rfl

/-- A change of what source `i` holds but the two fields. -/
theorem State.modifySource_retimed (s : State) {g : Source → Source} (hg : ∀ x, g (x.retimed a b) = (g x).retimed a b) :
    (s.retimed i a b).modifySource i g = (s.modifySource i g).retimed i a b := by
  simp only [State.modifySource_eq, State.retimed, State.source_setSource_self, State.setSource_setSource, hg]

theorem State.readyWaiting_retimed (s : State) : (s.retimed i a b).readyWaiting = s.readyWaiting.retimed i a b := by
  have hhead : ∀ x : Source, (if (x.retimed a b).head = .waiting then { x.retimed a b with head := .ready } else x.retimed a b)
      = (if x.head = .waiting then { x with head := .ready } else x).retimed a b := fun x => by
    by_cases h : x.head = .waiting
    · rw [if_pos h, if_pos (show (x.retimed a b).head = .waiting from h)]; rfl
    · rw [if_neg h, if_neg (show ¬ (x.retimed a b).head = .waiting from h)]
  have hsources : (s.retimed i a b).readyWaiting.sources = (s.readyWaiting.retimed i a b).sources := by
    simp only [State.readyWaiting, State.retimed, State.setSource, State.source, Vector.map_set, Vector.getElem_map, hhead]
  exact congrArg (fun v => ({ s with sources := v } : State)) hsources

theorem State.removeUnissued_retimed (s : State) (f : FrameId) :
    (s.retimed i a b).removeUnissued f = (s.removeUnissued f).retimed i a b := by
  unfold State.removeUnissued
  rw [show (s.retimed i a b).writeQueue = s.writeQueue from rfl]
  split
  · rw [← State.readyWaiting_retimed]
    rfl
  · rfl

theorem State.freeFrame_retimed (s : State) (f : FrameId) : (s.retimed i a b).freeFrame f = (s.freeFrame f).retimed i a b := by
  have hdeserted : (s.retimed i a b).deserted f = (s.deserted f).retimed i a b := by
    unfold State.deserted
    rw [show (s.retimed i a b).staleOps f = (s.staleOps f).retimed i a b from rfl, State.removeUnissued_retimed,
      State.retimed_of_withSources i a b (g := fun u => (u.releaseView f .free).loseCursors (fun c => c.onFrame f) .free) fun v u => by
        simp only [State.releaseView_withSources, State.loseCursors_withSources]]
  have hunpinned : ∀ (v : Vector Source 3) (u : State), (u.withSources v).unpinned f = (u.unpinned f).withSources v := fun _ _ => rfl
  have hvacated : ∀ (v : Vector Source 3) (u : State), (u.withSources v).vacated f = (u.vacated f).withSources v := fun _ _ => rfl
  rw [State.freeFrame_eq, State.freeFrame_eq, hdeserted,
    State.retimed_of_withSources i a b (g := fun u => (((u.unpinned f).tellGone f .free).vanishReads f).vacated f) fun v u => by
      simp only [hunpinned, hvacated, State.tellGone_withSources, State.vanishReads_withSources]]

/-! ### A binding (R8 to R17) -/

theorem State.handOn_retimed (s : State) (f : FrameId) (kind : BindingKind) (scheduled evicted : Bool) :
    (s.retimed i a b).handOn i f kind scheduled evicted = (s.handOn i f kind scheduled evicted).retimed i a b := by
  have hbound : (s.retimed i a b).bindSource i f = (s.bindSource i f).retimed i a b := by
    unfold State.bindSource
    rw [show (s.retimed i a b).frame f = s.frame f from rfl]
    split
    · rfl
    · exact State.modifySource_retimed i a b s fun _ => rfl
  have hrest := State.retimed_of_withSources i a b (g := fun u => State.raise (if evicted then
      (if scheduled then u.tellBound f else u).raise (.frame f) (.frameEvicted i)
      else if scheduled then u.tellBound f else u) (.frame f) (.frameBound i kind)) fun v u => by
        simp only [State.tellBound_withSources, State.raise_withSources, State.withSources_ite]
  unfold State.handOn
  rw [hbound]
  exact hrest _

theorem State.discardStream_retimed (s : State) : (s.retimed i a b).discardStream i = (s.discardStream i).retimed i a b :=
  State.modifySource_retimed i a b s fun _ => rfl

theorem State.freshFrame_retimed (s : State) (f : FrameId) (old : Option FrameId) (k : FrameIdentity) :
    ((s.retimed i a b).handOver old f).freshFrame f i k = ((s.handOver old f).freshFrame f i k).retimed i a b :=
  State.retimed_of_withSources i a b (g := fun u => (u.handOver old f).freshFrame f i k) (fun v u => by
    rw [State.handOver_withSources]
    rfl) s

theorem State.bindFresh_retimed (s : State) (k : FrameIdentity) (old : Option FrameId) :
    (s.retimed i a b).bindFresh i k old = (s.bindFresh i k old).retimed i a b := by
  unfold State.bindFresh
  rw [show (s.retimed i a b).freeSlot = s.freeSlot from rfl, show (s.retimed i a b).evictionChoice = s.evictionChoice from rfl]
  dsimp only
  split
  · rw [State.freshFrame_retimed, State.handOn_retimed]
  · split
    · rw [State.freeFrame_retimed, State.freshFrame_retimed, State.handOn_retimed]
    · rw [State.discardStream_retimed]
      exact State.retimed_of_withSources i a b (g := fun u => u.logError _) (fun v u => u.logError_withSources v _) _

theorem State.bindStart_retimed (s : State) (x : StartRecord) :
    (s.retimed i a b).bindStart i x = (s.bindStart i x).retimed i a b := by
  have hunscheduled : (s.retimed i a b).bindUnscheduled i x = (s.bindUnscheduled i x).retimed i a b := by
    have hconfig : ((s.retimed i a b).source i).config = (s.source i).config := by rw [State.source_retimed, if_pos rfl]; rfl
    unfold State.bindUnscheduled
    rw [hconfig, State.discardStream_retimed, show (s.retimed i a b).adHocIdentity x = s.adHocIdentity x from rfl,
      State.bindFresh_retimed]
    split
    · rfl
    · exact State.retimed_of_withSources i a b (g := fun u => u.raise _ _) (fun v u => u.raise_withSources v _ _) _
  have hscheduled : ∀ e d, (s.retimed i a b).bindScheduled i e d = (s.bindScheduled i e d).retimed i a b := fun e d => by
    unfold State.bindScheduled
    rw [show (s.retimed i a b).bindingStep e d = s.bindingStep e d from rfl]
    split
    · next f _ =>
      rw [show (s.retimed i a b).joinFrame f i = (s.joinFrame f i).retimed i a b from rfl, State.handOn_retimed]
    · next f _ =>
      rw [show (s.retimed i a b).rejoinFrame f i = (s.rejoinFrame f i).retimed i a b from rfl, State.handOn_retimed]
    · next f _ =>
      rw [State.retimed_of_withSources i a b (g := fun u => u.newPass f i e d) (fun v u => u.newPass_withSources v f i e d),
        State.handOn_retimed]
    · next f _ =>
      rw [State.retimed_of_withSources i a b (g := fun u => u.takeExpected f i e d) (fun v u => u.takeExpected_withSources v f i e d),
        State.handOn_retimed]
    · rw [show (s.retimed i a b).broadcastDay d = s.broadcastDay d from rfl, State.bindFresh_retimed]
  unfold State.bindStart
  rw [show (s.retimed i a b).clock = s.clock from rfl, show (s.retimed i a b).chosenEntry x = s.chosenEntry x from rfl]
  split
  · split
    · exact hscheduled _ _
    · exact hunscheduled
  · exact hunscheduled

/-- A START taken, and what follows the event (log 12), where no other START waits. -/
def State.bindStartOn (s : State) (x : StartRecord) : State := ((s.bindStart i x).carrySearch).resumeJobs

theorem State.bindStartOn_retimed (s : State) (x : StartRecord) :
    (s.retimed i a b).bindStartOn i x = (s.bindStartOn i x).retimed i a b := by
  unfold State.bindStartOn
  rw [State.bindStart_retimed]
  exact State.retimed_of_withSources i a b (g := fun u => u.carrySearch.resumeJobs) (fun v u => by
    rw [State.carrySearch_withSources, State.resumeJobs_withSources]) _

end Retimed

section Taken
variable {s : State} {i : SourceId}

theorem State.retimed_retimed (s : State) (i : SourceId) (a a' : Option Nat) (b b' : Nat) :
    (s.retimed i a b).retimed i a' b' = s.retimed i a' b' := by
  simp only [State.retimed, State.source_setSource_self, State.setSource_setSource]
  rfl

theorem State.retimed_self (s : State) (i : SourceId) :
    s.retimed i (s.source i).silenceTimer (s.source i).checkFailures = s := by
  show s.setSource i (s.source i) = s
  have hself : s.sources.set i.val s.sources[i.val] = s.sources := Vector.set_getElem_self ..
  exact congrArg (fun v => ({ s with sources := v } : State)) hself

/-- After a binding of a source that holds no START, none waits where none did. -/
theorem State.bindStart_not_waits (hfree : ∀ j, ¬ (s.source j).startWaits) (hheld : (s.source i).held = none) (x : StartRecord)
    (j : SourceId) : ¬ ((s.bindStart i x).source j).startWaits := by
  have hbinds := s.bindStart_binds i x
  by_cases hj : j = i
  · rintro ⟨hwaits, -⟩
    rw [hj, hbinds.held, hheld] at hwaits
    cases hwaits
  · exact fun h => hfree j ((hbinds.others j hj).startWaits h)

theorem State.closeEvent_of_not_waits (h : ∀ j, ¬ (s.source j).startWaits) : s.closeEvent = s.carrySearch.resumeJobs := by
  have hfold : allSources.foldl (fun s j => s.takeHeldStart j) s = s := by
    simp only [allSources, List.foldl_cons, List.foldl_nil, State.takeHeldStart_of_not_waits (h _)]
  rw [State.closeEvent, hfold]

/-- Where source `i` alone has a START to take, the end of the event is that of the START's own. -/
theorem State.closeEvent_of_waits {t : State} (hi : s.takeHeldStart i = t) (hothers : ∀ j, j ≠ i → ¬ (s.source j).startWaits)
    (ht : ∀ j, ¬ (t.source j).startWaits) : s.closeEvent = t.carrySearch.resumeJobs := by
  have hs : ∀ j, j ≠ i → s.takeHeldStart j = s := fun j hj => State.takeHeldStart_of_not_waits (hothers j hj)
  have hrest : ∀ j, t.takeHeldStart j = t := fun j => State.takeHeldStart_of_not_waits (ht j)
  have hfold : allSources.foldl (fun s j => s.takeHeldStart j) s = t := by
    have hall : ∀ i : SourceId, i = 0 ∨ i = 1 ∨ i = 2 := by decide
    simp only [allSources, List.foldl_cons, List.foldl_nil]
    rcases hall i with rfl | rfl | rfl
    · rw [hi, hrest, hrest]
    · rw [hs 0 (by decide), hi, hrest]
    · rw [hs 0 (by decide), hs 1 (by decide), hi]
  rw [State.closeEvent, hfold]

end Taken

/-! ### The head taken (R52, R53) -/

theorem State.nextHead_of_headDue {s : State} {i : SourceId} (h : s.headDue i) : s.nextHead = some i := by
  obtain ⟨k, hk, hi, hready, hbefore⟩ := h
  have hplace : ∀ (j : SourceId) (m : Nat), j.val = (s.pointer.val + m) % 3 → j = s.pointer + (Fin.ofNat 3 m) := fun j m hj =>
    Fin.ext (by rw [hj]; simp [Fin.val_add, Fin.ofNat])
  have hnot : ∀ m : Nat, m < k → (s.source (s.pointer + Fin.ofNat 3 m)).headReady = false := fun m hm =>
    hbefore _ m hm (by simp [Fin.val_add, Fin.ofNat])
  have hir : (s.source (s.pointer + Fin.ofNat 3 k)).headReady = true := by rw [← hplace i k hi]; exact hready
  have hzero : s.pointer + Fin.ofNat 3 0 = s.pointer := add_zero _
  have hone : s.pointer + Fin.ofNat 3 1 = s.pointer + 1 := rfl
  have htwo : s.pointer + Fin.ofNat 3 2 = s.pointer + 2 := rfl
  rw [hplace i k hi]
  unfold State.nextHead sourcesFrom
  have hcases : k = 0 ∨ k = 1 ∨ k = 2 := by omega
  rcases hcases with rfl | rfl | rfl
  · rw [hzero] at hir ⊢
    rw [List.find?_cons_of_pos (p := fun j => (s.source j).headReady) hir]
  · have hfirst := hnot 0 (by omega)
    rw [hzero] at hfirst
    rw [hone] at hir ⊢
    rw [List.find?_cons_of_neg (p := fun j => (s.source j).headReady) (by simp [hfirst]), List.find?_cons_of_pos (p := fun j => (s.source j).headReady) hir]
  · have hfirst := hnot 0 (by omega)
    have hsecond := hnot 1 (by omega)
    rw [hzero] at hfirst
    rw [hone] at hsecond
    rw [htwo] at hir ⊢
    rw [List.find?_cons_of_neg (p := fun j => (s.source j).headReady) (by simp [hfirst]),
      List.find?_cons_of_neg (p := fun j => (s.source j).headReady) (by simp [hsecond]),
      List.find?_cons_of_pos (p := fun j => (s.source j).headReady) hir]

theorem exec_headTake_of_headDue {s : State} {i : SourceId} (h : s.headDue i) :
    exec .headTake s = .next (s.takeHead i).closeEvent := by
  show execHeadTake s = _
  rw [execHeadTake, State.nextHead_of_headDue h]

end Sys2Proof.Machine
end

section
/-! Settles O33: the head that is a STOP marker (R41, R53, R80), and the held START after it (R26). -/

namespace Sys2Proof.Machine

section Marker
variable {s : State} {i : SourceId} {k : StopEnd} {b : StreamBinding}

/-- What a marker leaves at the head of a ring that holds no more: the frame changed, the source detached, SOURCE_END raised (R41). -/
def State.markerLeft (s : State) (i : SourceId) (k : StopEnd) (b : StreamBinding) (frame : Frame) (held : Option StartRecord) : State :=
  ((({ s with pointer := i + 1 } : State).setFrame b.frame frame).setSource i { (s.source i).markerTaken with held := held }).raise (.source i)
    (.sourceEnd b.frame b.pass k)

/-- The frame that its last joined source leaves (R80). -/
def Frame.leftByLast (x : Frame) (joined : Vector Bool 3) (settle : Nat) : Frame :=
  { x with joined := joined, state := .settling, pendingMark := true, settleTimer := some settle, stamp := next16 x.stamp }

theorem Source.markerTaken_held (x : Source) : { x.markerTaken with held := x.held } = x.markerTaken := rfl

theorem Source.markerTaken_of_single {x : Source} (hring : x.ring = [.marker k]) (held : Option StartRecord) :
    { x.markerTaken with held := held } =
      { x with ring := [], hysteresis := false, binding := none, firstSeq := none, expectedSeq := none, linePeriodTimer := none
               fadeTimer := none, held := held, state := if x.state = .draining then SourceState.idle else x.state } := by
  have hstate : x.state.afterMarker = if x.state = .draining then SourceState.idle else x.state := by
    cases x.state <;> rfl
  have hhysteresis : hysteresisAfterRemoval ([RingRecord.marker k].length - 1) x.hysteresis = false := by
    cases x.hysteresis <;> rfl
  unfold Source.markerTaken Source.unbind Source.removeHead Source.stopTimers
  rw [hring, hstate, hhysteresis]
  rfl

/-- The head taken, where the frame becomes the one given. -/
theorem State.takeHead_marker (hring : (s.source i).ring = [.marker k]) (hb : (s.source i).binding = some b) {frame : Frame}
    (hleft : ({ s with pointer := i + 1 } : State).detachSource b.frame i = ({ s with pointer := i + 1 } : State).setFrame b.frame frame) :
    s.takeHead i = s.markerLeft i k b frame (s.source i).held := by
  have htake : s.takeHead i = ({ s with pointer := i + 1 } : State).takeMarker i k := by
    unfold State.takeHead
    rw [hring]
  rw [htake, State.takeMarker_eq (s := { s with pointer := i + 1 }) hb, hleft, ← State.raise_setSource]
  rfl

theorem State.detachSource_of_joined {f : FrameId} (hreceiving : (s.frame f).state = .receiving) {j : SourceId}
    (hj : (setMember (s.frame f).joined i false)[j] = true) :
    s.detachSource f i = s.setFrame f { s.frame f with joined := setMember (s.frame f).joined i false } := by
  have hany : anyMember (setMember (s.frame f).joined i false) = true := by
    by_contra h
    have hnone := (anyMember_eq_false_iff _).mp (Bool.eq_false_of_not_eq_true h) j
    rw [hj] at hnone
    cases hnone
  rw [State.detachSource, if_pos hreceiving]
  exact if_pos hany

theorem State.detachSource_of_last {f : FrameId} (hreceiving : (s.frame f).state = .receiving)
    (hlast : ∀ j : SourceId, (setMember (s.frame f).joined i false)[j] = false) :
    s.detachSource f i = s.setFrame f
      ((s.frame f).leftByLast (setMember (s.frame f).joined i false) (s.storeConfig.settleTime * 1000)) := by
  have hnone := (anyMember_eq_false_iff _).mpr hlast
  rw [State.detachSource, if_pos hreceiving]
  exact if_neg (by rw [hnone]; decide)

variable (frame : Frame)

theorem State.source_markerLeft (held : Option StartRecord) (j : SourceId) :
    (s.markerLeft i k b frame held).source j = if j = i then { (s.source i).markerTaken with held := held } else s.source j := by
  rw [State.markerLeft, State.source_raise, State.source_setSource]
  rfl

theorem State.markerLeft_atRest (r : s.atRest) {held : Option StartRecord}
    (hfree : ¬ ({ (s.source i).markerTaken with held := held } : Source).startWaits) : (s.markerLeft i k b frame held).atRest := by
  have hmoved : s.RestKept (({ s with pointer := i + 1 } : State).setFrame b.frame frame) := .of_eq rfl rfl rfl rfl rfl
  exact (State.raise_restKept _ _ _).atRest (State.setSource_atRest (hmoved.atRest r) hfree)

/-- A held START is taken out of the source that holds it. -/
theorem State.markerLeft_takeHeld (held : Option StartRecord) :
    (s.markerLeft i k b frame held).setSource i { (s.markerLeft i k b frame held).source i with held := none }
      = s.markerLeft i k b frame none := by
  rw [State.source_markerLeft, if_pos rfl]
  simp only [State.markerLeft, State.raise_setSource, State.setSource_setSource]

/-- The START held by a source that the marker leaves IDLE is bound as one that arrives then, but for what a record received sets
(R22, R26). -/
theorem State.closeEvent_markerLeft_of_held (r : s.atRest) {x : StartRecord} (hheld : (s.source i).held = some x)
    (hidle : (s.source i).state.afterMarker = .idle) {v : State}
    (hv : exec (.start i x.frequency x.drum x.rate) (s.markerLeft i k b frame none) = .next v) :
    (s.markerLeft i k b frame (s.source i).held).closeEvent
      = v.retimed i (s.source i).silenceTimer (s.source i).checkFailures := by
  have hu : ∀ j, (s.markerLeft i k b frame none).source j = if j = i then { (s.source i).markerTaken with held := none } else s.source j :=
    fun j => State.source_markerLeft frame none j
  have hw : ∀ j, (s.markerLeft i k b frame (s.source i).held).source j = if j = i then (s.source i).markerTaken else s.source j :=
    fun j => State.source_markerLeft frame (s.source i).held j
  have htaken := State.markerLeft_takeHeld (s := s) (i := i) (k := k) (b := b) frame (s.source i).held
  generalize s.markerLeft i k b frame none = u at hu hv htaken
  generalize s.markerLeft i k b frame (s.source i).held = w at hw htaken ⊢
  have hui := hu i
  have hwi := hw i
  rw [if_pos rfl] at hui hwi
  have hufree : ∀ j, ¬ (u.source j).startWaits := fun j => by
    rw [hu j]
    split
    · rintro ⟨hwaits, -⟩
      cases hwaits
    · exact r.not_startWaits j
  have huheld : (u.source i).held = none := by rw [hui]
  have hothers : ∀ j, j ≠ i → ¬ (w.source j).startWaits := fun j hj => by
    rw [hw j, if_neg hj]
    exact r.not_startWaits j
  have hclose : w.closeEvent = u.bindStartOn i x := by
    refine State.closeEvent_of_waits ?_ hothers (State.bindStart_not_waits hufree huheld x)
    rw [State.takeHeldStart_of_waits (x := x) (by rw [hwi]; exact hheld) (by rw [hwi]; exact hidle) (by rw [hwi]; rfl), htaken]
  have hstart : v = (u.bindStartOn i x).retimed i (some 2000) 0 := by
    have hexec := exec_start (s := u) (i := i) (by rw [hui]; exact hidle) (by rw [hui]; rfl) x.frequency x.drum x.rate
    have hretimed : ∀ j, ¬ ((u.bindStart i x).retimed i (some 2000) 0 |>.source j).startWaits := fun j => by
      rw [State.source_retimed]
      split
      · exact State.bindStart_not_waits hufree huheld x i
      · exact State.bindStart_not_waits hufree huheld x j
    rw [State.heard_eq_retimed, State.bindStart_retimed, State.closeEvent_of_not_waits hretimed, hv] at hexec
    rw [State.retimed_of_withSources i (some 2000) 0 (g := fun u => u.carrySearch.resumeJobs) fun v u => by
      rw [State.carrySearch_withSources, State.resumeJobs_withSources]] at hexec
    exact Host.Outcome.next.inj hexec
  have hsame : u.retimed i (s.source i).silenceTimer (s.source i).checkFailures = u := by
    have hself := State.retimed_self u i
    rwa [hui] at hself
  rw [hclose, hstart, State.retimed_retimed, ← State.bindStartOn_retimed, hsame]

/-- The head taken: nothing follows where no START is held, and a held one is bound. -/
theorem exec_headTake_markerLeft (r : s.atRest) (hdue : s.headDue i)
    (htake : s.takeHead i = s.markerLeft i k b frame (s.source i).held) :
    ((s.source i).held = none → exec .headTake s = .next (s.markerLeft i k b frame none))
      ∧ ∀ h v, (s.source i).held = some h → (s.source i).state = .draining ∨ (s.source i).state = .idle →
        exec (.start i h.frequency h.drum h.rate) (s.markerLeft i k b frame none) = .next v →
        exec .headTake s = .next (v.retimed i (s.source i).silenceTimer (s.source i).checkFailures) := by
  rw [exec_headTake_of_headDue hdue, htake]
  constructor
  · intro hnone
    rw [hnone]
    exact congrArg Host.Outcome.next (State.closeEvent_of_atRest (State.markerLeft_atRest frame r (fun ⟨hwaits, _⟩ => by cases hwaits)))
  · intro h v hheld hstate hv
    have hidle : (s.source i).state.afterMarker = .idle := by rcases hstate with hx | hx <;> rw [hx] <;> rfl
    rw [State.closeEvent_markerLeft_of_held frame r hheld hidle hv]

end Marker

/-- Settles O33: the head is the marker of its source's ring, which leaves the source idle and its frame SETTLING where no other joined source
remains; a START it held is then bound as one that arrives. -/
theorem headTakeDetachesAtTheMarker : Obligations.HeadTakeDetachesAtTheMarker := by
  unfold Obligations.HeadTakeDetachesAtTheMarker
  intro i k b s r hdue x f hring hb hreceiving joined left after
  have hleft : ∀ frame : Frame, left frame = s.markerLeft i k b frame none := fun frame => by
    unfold State.markerLeft
    rw [Source.markerTaken_of_single hring]
  have hafter : ∀ frame : Frame, ({ s with pointer := i + 1 } : State).detachSource f i = ({ s with pointer := i + 1 } : State).setFrame f frame →
      after (left frame) := fun frame hframe => by
    rw [hleft]
    exact exec_headTake_markerLeft frame r hdue (State.takeHead_marker hring hb hframe)
  exact ⟨fun ⟨_, hj⟩ => hafter _ (State.detachSource_of_joined (s := { s with pointer := i + 1 }) hreceiving hj),
    fun hlast => hafter _ (State.detachSource_of_last (s := { s with pointer := i + 1 }) hreceiving hlast)⟩

end Sys2Proof.Machine
end

section
/-! SUPPORT. The pairs of ERROR_LOGGED, and of the kinds after it, in the pending sets (R131, R169): what is raised of an earlier kind leaves them, in
their order, as they are. -/

namespace Sys2Proof.Machine

/-! ### Filing beside them (R169) -/

/-- The pair is of ERROR_LOGGED or of a later kind. -/
def NoticePair.ofError (p : NoticePair) : Bool := decide (13 ≤ p.detail.kindIndex.val)

/-- Those pairs of a client's pending set. -/
def NoticeClient.errorPairs (c : NoticeClient) : List NoticePair := c.pendingSet.filter NoticePair.ofError

theorem NoticePair.key_lt_of_ofError {p q : NoticePair} (hp : p.ofError = true) (hq : q.ofError = false) : q.key < p.key := by
  have hp' := of_decide_eq_true hp
  have hq' := of_decide_eq_false hq
  exact (NoticePair.key_lt_iff q p).mpr (.inl (Fin.lt_def.mpr (by omega)))

/-- A pair merged into another has its kind. -/
theorem NoticePair.ofError_merged {p q : NoticePair} (h : p.key = q.key) (n : Nat) :
    ({ q with detail := p.detail, count := n } : NoticePair).ofError = q.ofError := by
  have hkind := ((NoticePair.key_eq_iff p q).mp h).1
  unfold NoticePair.ofError
  rw [← hkind]

theorem filter_filePair_of_other {p : NoticePair} (h : p.ofError = false) :
    ∀ l, (filePair p l).filter NoticePair.ofError = l.filter NoticePair.ofError
  | [] => by simp [filePair, h]
  | q :: qs => by
    unfold filePair
    split
    · rw [List.filter_cons_of_neg (by simp [h])]
    · split
      · next hk =>
        have hq : q.ofError = false := by
          rw [← NoticePair.ofError_merged hk 0]
          exact h
        rw [List.filter_cons_of_neg (by simp [NoticePair.ofError_merged hk, hq]), List.filter_cons_of_neg (by simp [hq])]
      · rw [List.filter_cons, List.filter_cons, filter_filePair_of_other h qs]

theorem filter_filePair_of_ofError {p : NoticePair} (h : p.ofError = true) :
    ∀ l, (filePair p l).filter NoticePair.ofError = filePair p (l.filter NoticePair.ofError)
  | [] => by simp [filePair, h]
  | q :: qs => by
    cases hq : q.ofError with
    | false =>
      have hlt := NoticePair.key_lt_of_ofError h hq
      rw [filePair, if_neg (by omega), if_neg (by omega), List.filter_cons_of_neg (by simp [hq]), List.filter_cons_of_neg (by simp [hq]),
        filter_filePair_of_ofError h qs]
    | true =>
      rw [List.filter_cons_of_pos hq, filePair, filePair]
      split
      · rw [List.filter_cons_of_pos h, List.filter_cons_of_pos hq]
      · split
        · next hk => rw [List.filter_cons_of_pos (by rw [NoticePair.ofError_merged hk]; exact hq)]
        · rw [List.filter_cons_of_pos hq, filter_filePair_of_ofError h qs]

theorem NoticeClient.errorPairs_offer_of_other (c : NoticeClient) (o : Origin) {d : NoticeDetail} (h : d.kindIndex < 13) :
    (c.offer o d).errorPairs = c.errorPairs := by
  unfold NoticeClient.offer
  dsimp only
  split
  · rfl
  · exact filter_filePair_of_other (decide_eq_false (Nat.not_le.mpr h)) _

/-- An ERROR_LOGGED is filed alike where the other kinds' pairs differ. -/
theorem NoticeClient.errorPairs_offer_congr {c c' : NoticeClient} (hlevels : c'.levels = c.levels) (hpairs : c'.errorPairs = c.errorPairs)
    (o : Origin) {d : NoticeDetail} (h : 13 ≤ d.kindIndex.val) : (c'.offer o d).errorPairs = (c.offer o d).errorPairs := by
  have hfiled : ∀ c : NoticeClient, (c.offer o d).errorPairs = if c.levels[d.kindIndex.val] = 0 then c.errorPairs
      else filePair { origin := o, detail := d, level := c.levels[d.kindIndex.val], count := 1 } c.errorPairs := fun c => by
    unfold NoticeClient.offer
    dsimp only
    split
    · rfl
    · exact filter_filePair_of_ofError (decide_eq_true h) _
  rw [hfiled, hfiled, hlevels, hpairs]

/-! ### What raises notices of the earlier kinds only -/

/-- From `s` to `t` the pairs of errors in every pending set are as they were. -/
structure State.KeepsErrorPairs (s t : State) : Prop where
  levels : ∀ n, (t.client n).levels = (s.client n).levels
  pairs  : ∀ n, (t.client n).errorPairs = (s.client n).errorPairs

section Keeps
variable {s t u : State}

theorem State.KeepsErrorPairs.refl (s : State) : s.KeepsErrorPairs s := ⟨fun _ => rfl, fun _ => rfl⟩

theorem State.KeepsErrorPairs.trans (h : s.KeepsErrorPairs t) (k : t.KeepsErrorPairs u) : s.KeepsErrorPairs u :=
  ⟨fun n => (k.levels n).trans (h.levels n), fun n => (k.pairs n).trans (h.pairs n)⟩

theorem State.KeepsErrorPairs.of_eq (h : t.clients = s.clients) : s.KeepsErrorPairs t :=
  ⟨fun n => by simp [State.client, h], fun n => by simp [State.client, h]⟩

theorem State.KeepsErrorPairs.ite {p : Prop} [Decidable p] (h : s.KeepsErrorPairs t) (k : s.KeepsErrorPairs u) :
    s.KeepsErrorPairs (if p then t else u) := by
  split
  · exact h
  · exact k

theorem State.KeepsErrorPairs.foldl {α : Type} {g : State → α → State} (hg : ∀ (s : State) (a : α), s.KeepsErrorPairs (g s a)) :
    ∀ (l : List α) (s : State), s.KeepsErrorPairs (l.foldl g s)
  | [], s => .refl s
  | a :: l, s => (hg s a).trans (State.KeepsErrorPairs.foldl hg l (g s a))

theorem State.KeepsErrorPairs.raise (s : State) (o : Origin) {d : NoticeDetail} (h : d.kindIndex < 13) :
    s.KeepsErrorPairs (s.raise o d) :=
  ⟨fun n => by simp, fun n => by rw [State.client_raise, NoticeClient.errorPairs_offer_of_other _ o h]⟩

theorem State.clients_enqueueError (s : State) (e : ErrorReport) (m : Bool) : (s.enqueueError e m).clients = s.clients := by
  unfold State.enqueueError
  split <;> rfl

/-- An error is filed alike where the notices of the earlier kinds differ. -/
theorem State.KeepsErrorPairs.logError (h : s.KeepsErrorPairs t) (herrors : t.errors = s.errors) (e : ErrorReport) :
    (s.logError e).KeepsErrorPairs (t.logError e) := by
  have hqueued : (s.enqueueError e false).KeepsErrorPairs (t.enqueueError e false) :=
    ((State.KeepsErrorPairs.of_eq (s.clients_enqueueError e false).symm).trans h).trans (.of_eq (t.clients_enqueueError e false))
  unfold State.logError State.fileError
  rw [herrors]
  refine ⟨fun n => ?_, fun n => ?_⟩
  · simpa using hqueued.levels n
  · rw [State.client_raise, State.client_raise]
    exact NoticeClient.errorPairs_offer_congr (hqueued.levels n) (hqueued.pairs n) _ (le_refl 13)

theorem State.KeepsErrorPairs.mem {n : ClientId} {p : NoticePair} (h : s.KeepsErrorPairs t) (hp : p ∈ (s.client n).pendingSet)
    (hk : p.detail.kindIndex = 13) : p ∈ (t.client n).pendingSet := by
  have hmem : p ∈ (s.client n).errorPairs := List.mem_filter.mpr ⟨hp, by rw [NoticePair.ofError, hk]; rfl⟩
  rw [← h.pairs n] at hmem
  exact (List.mem_filter.mp hmem).1

end Keeps

/-! ### The mosaic unit (R100 to R106) -/

theorem State.resetSeam_keepsErrorPairs (s : State) (g : GroupId) (k : Nat) : s.KeepsErrorPairs (s.resetSeam g k) := by
  unfold State.resetSeam
  split
  · exact .refl s
  · next m _ =>
    have habandoned : s.KeepsErrorPairs (if m.state = .searching then s.abandonSearch else s) := .ite (.of_eq rfl) (.refl s)
    exact habandoned.trans (.of_eq rfl)

theorem State.queueSeam_keepsErrorPairs (s : State) (g : GroupId) (k : Nat) : s.KeepsErrorPairs (s.queueSeam g k) := by
  unfold State.queueSeam
  split
  · exact .refl s
  · exact .ite (.refl s) (.ite (.of_eq rfl) (.of_eq rfl))

theorem State.refillQueue_keepsErrorPairs (s : State) : s.KeepsErrorPairs s.refillQueue := by
  refine State.KeepsErrorPairs.foldl (fun s g => State.KeepsErrorPairs.foldl (fun s k => ?_) _ s) _ s
  unfold State.admitWaiting
  split
  · exact .refl s
  · exact .ite (.of_eq rfl) (.refl s)

theorem State.testJoining_keepsErrorPairs (b s : State) (g : GroupId) : s.KeepsErrorPairs (b.testJoining s g) := by
  have hentered : ∀ (u : State) st, u.KeepsErrorPairs (b.enterGroup u g st) := fun _ _ => .of_eq rfl
  refine .ite ?_ (.refl s)
  refine State.KeepsErrorPairs.trans ?_ (.ite (State.KeepsErrorPairs.trans (hentered _ _) (.raise _ _ (show (10 : Fin 16) < 13 by decide)))
    (.refl _))
  exact (hentered s _).trans (State.KeepsErrorPairs.foldl (fun s k => s.queueSeam_keepsErrorPairs g k) _ _)

theorem State.ungather_keepsErrorPairs (b s : State) (g : GroupId) (k : Nat) (c : StaleCause) :
    s.KeepsErrorPairs (b.ungather s g k c) := by
  have hentered : s.KeepsErrorPairs (b.enterGroup s g .gathering) := .of_eq rfl
  unfold State.ungather
  split
  · exact hentered
  · exact hentered.trans (.raise _ _ (show (11 : Fin 16) < 13 by decide))
  · exact .refl s
  · exact .refl s

theorem State.tellGone_keepsErrorPairs (s : State) (f : FrameId) (c : StaleCause) : s.KeepsErrorPairs (s.tellGone f c) := by
  unfold State.tellGone
  split
  · next g k _ =>
    have hcleared : s.KeepsErrorPairs ((s.setSectionFrame g k none).clearMembership g f) := by
      rw [State.clearMembership, State.retainFor_eq]
      exact .of_eq rfl
    have hheight : ∀ u : State, u.KeepsErrorPairs (u.recomputeHeight g) := fun _ => .of_eq rfl
    have hreset : ∀ u : State, u.KeepsErrorPairs ((((u.resetSeam g k).resetSeam g (k + 1)).refillQueue).recomputeHeight g) := fun u =>
      (((u.resetSeam_keepsErrorPairs g k).trans (State.resetSeam_keepsErrorPairs _ g (k + 1))).trans
        (State.refillQueue_keepsErrorPairs _)).trans (hheight _)
    exact ((hcleared.trans (hreset _)).trans (State.ungather_keepsErrorPairs s _ g k c)).trans (State.testJoining_keepsErrorPairs s _ g)
  · exact .refl s

/-! ### Cursors, views and sources (R43, R92, R154) -/

theorem State.loseCursors_keepsErrorPairs (s : State) (p : Cursor → Bool) (k : LostCause) : s.KeepsErrorPairs (s.loseCursors p k) := by
  have hlose : ∀ (s : State) (c : CursorId), s.KeepsErrorPairs (s.loseCursor c k) := fun s c => by
    unfold State.loseCursor
    split
    · exact .refl s
    · have hcut : s.KeepsErrorPairs ((s.unpinCursor c).cutJob c .lost) := by
        unfold State.cutJob
        split <;> exact .of_eq rfl
      have hslot : ∀ (u : State) x, u.KeepsErrorPairs ((u.abandonRead (.cursor c)).modifyCursor c (fun y => { y with slot := x })) := fun _ _ =>
        .of_eq rfl
      exact (hcut.trans (hslot _ _)).trans (.raise _ _ (by rw [lostDetail_kindIndex]; decide))
  exact State.KeepsErrorPairs.foldl (fun s c => .ite (hlose s c) (.refl s)) _ s

theorem State.releaseView_keepsErrorPairs (s : State) (f : FrameId) (k : LostCause) : s.KeepsErrorPairs (s.releaseView f k) := by
  cases hv : (s.frame f).view with
  | none => rw [State.releaseView_of_none hv]; exact .refl s
  | some v =>
    have hemptied : s.KeepsErrorPairs (s.viewEmptied f v) := .of_eq (congrArg State.clients (s.viewEmptied_only f v) :)
    rw [State.releaseView_of_some hv]
    have hclosed : ∀ u : State, u.KeepsErrorPairs ((u.setView v none).modifyFrame f (fun x => { x with view := none })) := fun _ => .of_eq rfl
    exact (hemptied.trans (State.loseCursors_keepsErrorPairs _ _ k)).trans (hclosed _)

theorem State.sourceFaulted_keepsErrorPairs (s : State) (i : SourceId) : s.KeepsErrorPairs (s.sourceFaulted i) := by
  unfold State.sourceFaulted
  split
  · exact .refl s
  · have hfaulted : s.KeepsErrorPairs (s.modifySource i Source.faulted) := .of_eq rfl
    exact hfaulted.trans (.raise _ _ (show (7 : Fin 16) < 13 by decide))

theorem State.faultFrame_keepsErrorPairs (s : State) (f : FrameId) : s.KeepsErrorPairs (s.faultFrame f) := by
  unfold State.faultFrame
  refine .ite ?_ (.refl s)
  have hmarked : ∀ u : State, u.KeepsErrorPairs (u.faultReads f) := fun u =>
    .of_eq (congrArg State.clients (u.faultReads_marksReads f).only :)
  have hframe : ∀ (u : State) g, u.KeepsErrorPairs (u.modifyFrame f g) := fun _ _ => .of_eq rfl
  have hstale : ∀ u : State, u.KeepsErrorPairs (u.staleOps f) := fun _ => .of_eq rfl
  refine State.KeepsErrorPairs.trans ?_ (hframe _ _)
  refine State.KeepsErrorPairs.trans ?_ (hmarked _)
  refine State.KeepsErrorPairs.trans ?_ (State.tellGone_keepsErrorPairs _ f _)
  refine State.KeepsErrorPairs.trans ?_ (State.loseCursors_keepsErrorPairs _ _ _)
  refine State.KeepsErrorPairs.trans ?_ (State.releaseView_keepsErrorPairs _ f _)
  refine State.KeepsErrorPairs.trans ?_ (hstale _)
  exact (hframe s _).trans (State.KeepsErrorPairs.foldl (fun s i => .ite (s.sourceFaulted_keepsErrorPairs i) (.refl s)) _ _)

end Sys2Proof.Machine
end

section
/-! SUPPORT. What searches and read commands leave as it is when they go on (log 12): all but the mosaic groups, the reads, the open cursors,
the ports and the pending sets. -/

namespace Sys2Proof.Machine

/-- From `s` to `t` searches and read commands have gone on, and nothing else has happened. -/
structure State.GoesOn (s t : State) : Prop extends s.Finishes t where
  only   : t = { s with
    groups := t.groups, seamQueue := t.seamQueue, engine := t.engine, holders := t.holders, seamHolder := t.seamHolder
    cursors := t.cursors, clients := t.clients, ports := t.ports }
  closed : ∀ c, (s.cursor c).openFields = none → t.cursor c = s.cursor c

section GoesOn
variable {s t u : State}

theorem State.GoesOn.refl (s : State) : s.GoesOn s := ⟨.refl s, rfl, fun _ _ => rfl⟩

theorem State.GoesOn.trans (h : s.GoesOn t) (k : t.GoesOn u) : s.GoesOn u where
  toFinishes := h.toFinishes.trans k.toFinishes
  only := by rw [k.only, h.only]
  closed c hc := (k.closed c (by rw [h.closed c hc, hc])).trans (h.closed c hc)

theorem State.GoesOn.foldl {α : Type} {g : State → α → State} (hg : ∀ (s : State) (a : α), s.GoesOn (g s a)) :
    ∀ (l : List α) (s : State), s.GoesOn (l.foldl g s)
  | [], s => .refl s
  | a :: l, s => (hg s a).trans (State.GoesOn.foldl hg l (g s a))

theorem State.GoesOn.ite {p : Prop} [Decidable p] (h : s.GoesOn t) (k : s.GoesOn u) : s.GoesOn (if p then t else u) := by
  split
  · exact h
  · exact k

theorem State.GoesOn.source (h : s.GoesOn t) (i : SourceId) : t.source i = s.source i := by
  unfold State.source
  rw [h.only]

theorem State.GoesOn.frame (h : s.GoesOn t) (f : FrameId) : t.frame f = s.frame f := by
  unfold State.frame
  rw [h.frames]

/-- A change of the cursor whose command goes on. -/
theorem State.Finishes.goesOn {c : CursorId} (h : s.Finishes t) (hopen : (s.cursor c).openFields ≠ none)
    (honly : t = { s with holders := t.holders, cursors := t.cursors, ports := t.ports })
    (hothers : ∀ d, d ≠ c → t.cursor d = s.cursor d) : s.GoesOn t where
  toFinishes := h
  only := by rw [honly]
  closed d hd := hothers d fun e => hopen (e ▸ hd)

end GoesOn

/-! ### The search -/

theorem State.placeRead_goesOn (s : State) (h : ReadHolder) (f : FrameId) (row : Nat) (d : DrumClass) (p : Option PoolRow) :
    s.GoesOn (s.placeRead h f row d p) := by
  refine ⟨s.placeRead_finishes h f row d p, ?_, fun c _ => ?_⟩
  · cases h <;> rfl
  · rw [State.placeRead, State.cursor_setHolder]

theorem State.keepRow_goesOn (s : State) (x : Search) (p : Option (List Byte)) : s.GoesOn (s.keepRow x p) :=
  ⟨s.keepRow_finishes x p, rfl, fun _ _ => rfl⟩

theorem State.recordSeam_goesOn (s : State) (x : Search) : s.GoesOn (s.recordSeam x) := by
  have hfinishes := s.recordSeam_finishes x
  have hmoves := s.recordSeam_remosaics x
  generalize s.recordSeam x = t at hfinishes hmoves ⊢
  refine ⟨hfinishes, ?_, fun c _ => hmoves.cursor c⟩
  have honly := hmoves.only
  rw [hfinishes.frames] at honly
  rw [honly]

theorem State.runSearch_goesOn (fuel : Nat) (s : State) : s.GoesOn (s.runSearch fuel) := by
  induction fuel generalizing s with
  | zero => exact .refl s
  | succ fuel ih =>
    unfold State.runSearch
    split
    · exact .refl s
    · split
      · exact s.recordSeam_goesOn _
      · exact .ite (s.placeRead_goesOn _ _ _ _ _) ((s.keepRow_goesOn _ _).trans (ih _))

theorem State.carrySearch_goesOn (s : State) : s.GoesOn s.carrySearch := by
  unfold State.carrySearch
  split
  · exact .refl s
  · exact .ite (.refl s) (s.runSearch_goesOn _)

/-! ### Read commands -/

theorem State.parkJob_goesOn {s : State} {c : CursorId} (hjob : (s.cursor c).job ≠ none) (hopen : (s.cursor c).openFields ≠ none)
    (j : ReadJob) (p : JobPhase) : s.GoesOn (s.parkJob c j p) :=
  (State.parkJob_finishes hjob j p).goesOn hopen rfl fun d hd => by
    rw [State.parkJob, State.modifyCursor_eq, State.cursor_setCursor, if_neg hd]

theorem State.finishJob_goesOn {s : State} {c : CursorId} (hjob : (s.cursor c).job ≠ none) (hopen : (s.cursor c).openFields ≠ none)
    (x : CursorFields) (j : ReadJob) (st : Status) : s.GoesOn (s.finishJob c x j st) :=
  (State.finishJob_finishes hjob x j st).goesOn hopen rfl fun d hd => by
    rw [State.finishJob, State.answer, State.cursor_setPort, State.cursor_setCursor, if_neg hd]

theorem State.runJob_goesOn (fuel : Nat) (s : State) (c : CursorId) : s.GoesOn (s.runJob fuel c) := by
  induction fuel generalizing s with
  | zero => exact .refl s
  | succ fuel ih =>
    unfold State.runJob
    split
    · next x j hx hj =>
      have hjob : (s.cursor c).job ≠ none := by rw [hj]; exact Option.some_ne_none j
      have hopen : (s.cursor c).openFields ≠ none := by rw [hx]; exact Option.some_ne_none x
      have hpark := State.parkJob_goesOn hjob hopen
      split
      · exact State.finishJob_goesOn hjob hopen _ _ _
      · refine .ite (State.finishJob_goesOn hjob hopen _ _ _) ?_
        split
        · exact (hpark _ _).trans (ih _)
        · refine .ite (hpark _ _) ((s.placeRead_goesOn _ _ _ _ _).trans (State.parkJob_goesOn ?_ ?_ _ _))
          · rw [State.placeRead, State.cursor_setHolder]
            exact hjob
          · rw [State.placeRead, State.cursor_setHolder]
            exact hopen
    · exact .refl s
    · exact .refl s

theorem State.resumeJobs_goesOn (s : State) : s.GoesOn s.resumeJobs := by
  refine State.GoesOn.foldl (fun s c => ?_) _ s
  unfold State.resumeJob
  split
  · exact .ite (s.runJob_goesOn _ c) (.refl s)
  · exact .refl s

theorem State.closeEvent_goesOn {s : State} (h : s.noStartWaits) : s.GoesOn s.closeEvent := by
  unfold State.closeEvent
  rw [State.takeHeldStarts_of_noStartWaits h]
  exact s.carrySearch_goesOn.trans (State.resumeJobs_goesOn _)

/-- The answer to a read's requester (R122). -/
theorem State.answerRead_goesOn (s : State) (h : ReadHolder) (r : ReadRequest) (g : Option (List Byte)) :
    s.GoesOn (s.answerRead h r g) := by
  unfold State.answerRead
  refine .ite (.refl s) ?_
  split
  · next c =>
    unfold State.answerCursor
    split
    · next x j hx hj =>
      have hkeep : ∀ j i, s.GoesOn (s.keepItem c j i) := fun j i =>
        State.parkJob_goesOn (by rw [hj]; exact Option.some_ne_none _) (by rw [hx]; exact Option.some_ne_none _) _ _
      split
      · exact .refl s
      · refine .ite (hkeep _ _) ?_
        split <;> exact hkeep _ _
    · exact .refl s
    · exact .refl s
  · unfold State.answerSeam
    split
    · exact .refl s
    · exact .ite (s.keepRow_goesOn _ _) (s.keepRow_goesOn _ _)

end Sys2Proof.Machine
end

section
/-! SUPPORT. The commands of cursors that become LOST (R154), and a frame that becomes FAULTED (R43, R79, R125). -/

namespace Sys2Proof.Machine

/-! ### Commands answered LOST (R154) -/

/-- From `s` to `t` commands in progress have been cut off, each answered LOST with its port's tag, and of the ports without one nothing has
changed. -/
structure State.CutsOff (s t : State) : Prop where
  idle  : ∀ c, (s.cursor c).job = none → (t.cursor c).job = none
  jobs  : s.jobsOk → t.jobsOk
  tags  : ∀ n, (t.port n).tag = (s.port n).tag
  ports : ∀ n, (∀ c, ownerOf c = n → (s.cursor c).job = none) → t.port n = s.port n
  cut   : s.jobsOk → ∀ c, (s.cursor c).job.isSome = true → (t.cursor c).job = none →
    (t.port (ownerOf c)).buffer = some { status := .lost, tag := (s.port (ownerOf c)).tag, body := [] }

section CutsOff
variable {s t u : State}

/-- Where commands are right, the port of a command that has ended has none. -/
theorem State.CutsOff.noneOf (h : s.CutsOff t) (hs : s.jobsOk) {c : CursorId} (hc : (s.cursor c).job.isSome = true)
    (ht : (t.cursor c).job = none) (d : CursorId) (hd : ownerOf d = ownerOf c) : (t.cursor d).job = none := by
  by_cases hdc : d = c
  · rw [hdc]
    exact ht
  · exact h.idle d ((hs c hc).2 d hd hdc)

theorem State.CutsOff.trans (h : s.CutsOff t) (k : t.CutsOff u) : s.CutsOff u where
  idle c hc := k.idle c (h.idle c hc)
  jobs x := k.jobs (h.jobs x)
  tags n := (k.tags n).trans (h.tags n)
  ports n hn := (k.ports n fun c hc => h.idle c (hn c hc)).trans (h.ports n hn)
  cut hs c hc hu := by
    cases ht : (t.cursor c).job with
    | none => rw [k.ports _ (h.noneOf hs hc ht), h.cut hs c hc ht]
    | some j => rw [k.cut (h.jobs hs) c (by rw [ht]; rfl) hu, h.tags]

/-- No command has ended, and no port has changed. -/
theorem State.CutsOff.of_jobs (hjob : ∀ c, (t.cursor c).job.isSome = (s.cursor c).job.isSome) (hp : t.ports = s.ports) : s.CutsOff t := by
  have hnone : ∀ c, (t.cursor c).job = none ↔ (s.cursor c).job = none := fun c => by
    rw [← Option.isSome_eq_false_iff.trans Option.isNone_iff_eq_none, hjob, Option.isSome_eq_false_iff.trans Option.isNone_iff_eq_none]
  have hport : ∀ n, t.port n = s.port n := fun n => by simp only [State.port, hp]
  exact ⟨fun c => (hnone c).mpr, State.jobsOk_of_fewer (fun c => (hnone c).mpr) (fun n hn => by rw [hport]; exact hn),
    fun n => by rw [hport], fun n _ => hport n, fun _ c hc ht => absurd ((hnone c).mp ht) (ne_none_of_isSome hc)⟩

theorem State.CutsOff.of_eq (hc : t.cursors = s.cursors) (hp : t.ports = s.ports) : s.CutsOff t :=
  .of_jobs (fun c => by simp only [State.cursor, hc]) hp

theorem State.CutsOff.refl (s : State) : s.CutsOff s := .of_eq rfl rfl

theorem State.CutsOff.foldl {α : Type} {g : State → α → State} (hg : ∀ (s : State) (a : α), s.CutsOff (g s a)) :
    ∀ (l : List α) (s : State), s.CutsOff (l.foldl g s)
  | [], s => .refl s
  | a :: l, s => (hg s a).trans (State.CutsOff.foldl hg l (g s a))

theorem State.MarksReads.cutsOff (h : s.MarksReads t) : s.CutsOff t := .of_jobs h.jobs (congrArg State.ports h.only :)

theorem State.Remosaics.cutsOff (h : s.Remosaics t) : s.CutsOff t :=
  .of_eq (congrArg State.cursors h.only :) (congrArg State.ports h.only :)

end CutsOff

theorem State.cutJob_cutsOff (s : State) (c : CursorId) : s.CutsOff (s.cutJob c .lost) := by
  have htracks := s.cutJob_tracks c .lost
  obtain ⟨-, hcursor, htag⟩ := s.cutJob_spec c .lost
  refine ⟨htracks.idle, htracks.jobs, htag, fun n hn => ?_, fun _ d hd hcut => ?_⟩
  · unfold State.cutJob
    split
    · rfl
    · next j hj =>
      have hne : n ≠ ownerOf c := fun e => by
        rw [hn c e.symm] at hj
        cases hj
      rw [State.answer, State.port_setPort, if_neg hne]
      rfl
  · have hdc : d = c := by
      by_contra hne
      rw [hcursor, if_neg hne] at hcut
      rw [hcut] at hd
      cases hd
    rw [hdc] at hd ⊢
    obtain ⟨j, hj⟩ := Option.isSome_iff_exists.mp hd
    unfold State.cutJob
    rw [hj, State.answer, State.port_setPort_self]
    rfl

theorem State.loseCursor_cutsOff (s : State) (c : CursorId) (k : LostCause) : s.CutsOff (s.loseCursor c k) := by
  unfold State.loseCursor
  split
  · exact .refl s
  · have hunpinned : s.CutsOff (s.unpinCursor c) := .of_eq rfl rfl
    have hraised : ∀ (u : State) o d, u.CutsOff (u.raise o d) := fun u o d => by
      rw [State.raise_eq]
      exact .of_eq rfl rfl
    have hslot : ∀ (u : State) x, u.CutsOff ((u.abandonRead (.cursor c)).modifyCursor c (fun y => { y with slot := x })) := fun u x =>
      .of_jobs (fun d => by
        rw [State.modifyCursor_eq, State.cursor_setCursor]
        split
        · next hd => rw [hd]; rfl
        · rfl) rfl
    exact ((hunpinned.trans (State.cutJob_cutsOff _ c)).trans (hslot _ _)).trans (hraised _ _ _)

theorem State.loseCursors_cutsOff (s : State) (p : Cursor → Bool) (k : LostCause) : s.CutsOff (s.loseCursors p k) := by
  refine State.CutsOff.foldl (fun s c => ?_) _ s
  split
  · exact s.loseCursor_cutsOff c k
  · exact .refl s

theorem State.releaseView_cutsOff (s : State) (f : FrameId) (k : LostCause) : s.CutsOff (s.releaseView f k) := by
  cases hv : (s.frame f).view with
  | none => rw [State.releaseView_of_none hv]; exact .refl s
  | some v =>
    have honly := s.viewEmptied_only f v
    have hemptied : s.CutsOff (s.viewEmptied f v) := .of_eq (congrArg State.cursors honly :) (congrArg State.ports honly :)
    have hclosed : ∀ u : State, u.CutsOff ((u.setView v none).modifyFrame f (fun x => { x with view := none })) := fun _ => .of_eq rfl rfl
    rw [State.releaseView_of_some hv]
    exact (hemptied.trans (State.loseCursors_cutsOff _ _ k)).trans (hclosed _)

/-! ### The sources of a frame that becomes FAULTED (R43) -/

/-- From `s` to `t` the bound sources that `gone` names have left their streams, each with SOURCE_END. -/
structure State.FaultsSources (s t : State) (gone : SourceId → Bool) : Prop where
  only    : t = { s with sources := t.sources, clients := t.clients }
  kept    : ∀ i, gone i = false → t.source i = s.source i
  held    : ∀ i, (t.source i).held = (s.source i).held
  faulted : ∀ i b, gone i = true → (s.source i).binding = some b → t.source i = (s.source i).faulted
    ∧ ∀ m, (s.client m).levels[(7 : Fin 16)] ≠ 0 → t.hasFiled m (.source i) (.sourceEnd b.frame b.pass .lost)
  notices : s.SaysOnly [7] t

/-- One more source leaves its stream. -/
theorem State.FaultsSources.snoc {s t : State} {gone : SourceId → Bool} (h : s.FaultsSources t gone) {i : SourceId} (hi : gone i = false) :
    s.FaultsSources (t.sourceFaulted i) (fun j => gone j || decide (j = i)) := by
  have hsource := h.kept i hi
  have hsplit : ∀ j, (gone j || decide (j = i)) = false → gone j = false ∧ j ≠ i := fun j hj => by simpa using hj
  cases hb : (s.source i).binding with
  | none =>
    have hstays : t.sourceFaulted i = t := by rw [State.sourceFaulted, hsource, hb]
    rw [hstays]
    refine ⟨h.only, fun j hj => h.kept j (hsplit j hj).1, h.held, fun j b hj hbj => h.faulted j b ?_ hbj, h.notices⟩
    rcases (Bool.or_eq_true _ _).mp hj with hgone | heq
    · exact hgone
    · rw [of_decide_eq_true heq, hb] at hbj
      cases hbj
  | some b =>
    have hfault : t.sourceFaulted i = (t.setSource i (s.source i).faulted).raise (.source i) (.sourceEnd b.frame b.pass .lost) := by
      rw [State.sourceFaulted, hsource, hb, State.modifySource_eq, hsource]
    have hsources : ∀ j, (t.sourceFaulted i).source j = if j = i then (s.source i).faulted else t.source j := fun j => by
      rw [hfault, State.source_raise, State.source_setSource]
    have hsays : t.SaysOnly [7] (t.sourceFaulted i) := by
      rw [hfault]
      have hset : t.SaysOnly [7] (t.setSource i (s.source i).faulted) := .of_eq rfl
      exact hset.trans (.raise _ _ (show (7 : Fin 16) ∈ [7] by decide))
    refine ⟨?_, fun j hj => ?_, fun j => ?_, fun j c hj hc => ?_, h.notices.trans hsays⟩
    · rw [hfault, State.raise_eq, h.only]
      rfl
    · rw [hsources, if_neg (hsplit j hj).2, h.kept j (hsplit j hj).1]
    · rw [hsources]
      split
      · next hji => rw [hji]; rfl
      · exact h.held j
    · rw [hsources]
      by_cases hji : j = i
      · subst hji
        obtain rfl : b = c := Option.some.inj (hb.symm.trans hc)
        rw [if_pos rfl, hfault]
        refine ⟨rfl, fun m hm => State.raise_hasFiled _ ?_⟩
        rw [← h.notices.levels m] at hm
        exact hm
      · have hgone : gone j = true := by
          rcases (Bool.or_eq_true _ _).mp hj with hgone | heq
          · exact hgone
          · exact absurd (of_decide_eq_true heq) hji
        obtain ⟨hfaulted, htold⟩ := h.faulted j c hgone hc
        rw [if_neg hji, hfault]
        refine ⟨hfaulted, fun m hm => State.hasFiled.raise ?_ (.inr fun e => hji (Origin.source.inj e))⟩
        exact htold m hm

/-- The sources joined to a frame leave their streams (R43). -/
def State.faultSources (s : State) (joined : Vector Bool 3) : State :=
  allSources.foldl (fun s i => if joined[i.val] then s.sourceFaulted i else s) s

theorem State.faultSources_spec (s : State) (joined : Vector Bool 3) : s.FaultsSources (s.faultSources joined) (fun i => joined[i.val]) := by
  have fold : ∀ l : List SourceId, l.Nodup →
      s.FaultsSources (l.foldl (fun s i => if joined[i.val] then s.sourceFaulted i else s) s) (fun i => decide (i ∈ l) && joined[i.val]) := by
    intro l
    induction l using List.reverseRecOn with
    | nil => exact fun _ => ⟨rfl, fun _ _ => rfl, fun _ => rfl, fun _ _ h => (by simp at h), .refl s⟩
    | append_singleton l a ih =>
      intro hnodup
      obtain ⟨hl, -, hdisjoint⟩ := List.nodup_append.mp hnodup
      have ha : a ∉ l := fun hmem => hdisjoint a hmem a (List.mem_singleton.mpr rfl) rfl
      rw [List.foldl_append, List.foldl_cons, List.foldl_nil]
      cases hj : joined[a.val] with
      | false =>
        have hgone : (fun i : SourceId => decide (i ∈ l ++ [a]) && joined[i.val]) = (fun i => decide (i ∈ l) && joined[i.val]) := by
          funext i
          by_cases hi : i = a
          · simp [hi, hj]
          · simp [hi]
        rw [hgone]
        exact ih hl
      | true =>
        have hgone : (fun i : SourceId => decide (i ∈ l ++ [a]) && joined[i.val])
            = (fun i => (decide (i ∈ l) && joined[i.val]) || decide (i = a)) := by
          funext i
          by_cases hi : i = a
          · simp [hi, hj]
          · simp [hi]
        rw [hgone]
        exact (ih hl).snoc (by simp [ha])
  have hall : ∀ i : SourceId, i ∈ allSources := by decide
  have h := fold allSources (by decide)
  simpa [hall, State.faultSources] using h

/-! ### Becoming FAULTED (R79, R125) -/

/-- The frame without joined sources and without what a settling owes (R79). -/
def Frame.unjoined (x : Frame) : Frame :=
  { x with settleTimer := none, enable := false, pendingMark := false, joined := .replicate 3 false }

theorem State.faultFrame_of_canFault {s : State} {f : FrameId} (h : (s.frame f).state.canFault = true) :
    s.faultFrame f = ((((((((s.modifyFrame f Frame.unjoined).faultSources (s.frame f).joined).staleOps f).releaseView f .faulted).loseCursors
      (fun c => c.onFrame f) .faulted).tellGone f .faulted).faultReads f).modifyFrame f (fun x => { x with state := .faulted }.stamped)) :=
  if_pos h

/-- A frame that MU has been told is gone is in no group, and has changed in nothing else but its RETAIN holds (R101, R153). -/
theorem State.frame_tellGone_self (s : State) (f : FrameId) (c : StaleCause) :
    ∃ r, (s.tellGone f c).frame f = { s.frame f with mosaic := none, pins := { (s.frame f).pins with retain := r } } := by
  unfold State.tellGone
  split
  · rw [State.frame_leaveSection, if_pos rfl]
    exact ⟨_, rfl⟩
  · next h => exact ⟨(s.frame f).pins.retain, by rw [← h]⟩

/-- From `s` to `t` frame `f` has lost its view and its cursors (R92, R154). -/
structure State.Clears (s t : State) (f : FrameId) : Prop where
  only    : t = { s with
    frames := t.frames, views := t.views, pool := t.pool, holders := t.holders, seamHolder := t.seamHolder, cursors := t.cursors
    clients := t.clients, ports := t.ports }
  frame   : ∃ m r, t.frame f = { s.frame f with view := none, rowMap := m, pins := { (s.frame f).pins with retain := r } }
    ∧ m.map RowEntry.state = (s.frame f).rowMap.map RowEntry.state
  views   : ∀ v, (s.frame f).view = some v → t.view v = none
  pool    : ∀ p, t.poolRow p = (s.poolRow p).filter (fun h => decide ((s.frame f).view ≠ some h.view))
  lost    : ∀ c k, (s.cursor c).slot = .opened k → k.attachment = .current f ∨ k.attachment = .previous f →
    t.cursor c = { slot := .lost k, job := none }
  cuts    : s.CutsOff t
  notices : s.SaysOnly [12] t

theorem State.releaseView_loseCursors_clears (s : State) (f : FrameId) (cause : LostCause) :
    s.Clears ((s.releaseView f cause).loseCursors (fun c => c.onFrame f) cause) f := by
  have hrel := s.releaseView_releases f cause
  have hrelcuts := s.releaseView_cutsOff f cause
  generalize s.releaseView f cause = r at hrel hrelcuts ⊢
  have hloses := r.loseCursors_loses (fun c => c.onFrame f) cause
  have hlosecuts := r.loseCursors_cutsOff (fun c => c.onFrame f) cause
  simp only [Cursor.onFrame_and_open] at hloses
  generalize r.loseCursors (fun c => c.onFrame f) cause = t at hloses hlosecuts ⊢
  refine ⟨?_, ⟨(r.frame f).rowMap, (t.frame f).pins.retain, ?_, hrel.states⟩, fun v hv => ?_, fun p => ?_, fun c k hk ha => ?_, hrelcuts.trans hlosecuts,
    hrel.notices.trans hloses.notices⟩
  · rw [hloses.only, hrel.only]
  · rw [hloses.frames, hrel.frame]
    rfl
  · have hkept : t.view v = r.view v := by simp only [State.view, congrArg State.views hloses.only]
    rw [hkept, hrel.views, if_pos hv]
  · have hkept : t.poolRow p = r.poolRow p := by simp only [State.poolRow, congrArg State.pool hloses.only]
    rw [hkept, hrel.pool]
  · have hon : (s.cursor c).onFrame f = true := (Cursor.onFrame_iff _ _).mpr ⟨k, hk, ha⟩
    rw [← hrel.losers] at hon
    have hslot : ∀ k', (s.cursor c).slot = .opened k' → k' = k := fun k' hk' => CursorSlot.opened.inj (hk'.symm.trans hk)
    cases hgone : s.viewLosers f c with
    | true =>
      obtain ⟨k', hk', hlost⟩ := hrel.lost c hgone
      rw [hloses.kept c (by rw [hlost]; rfl), hlost, hslot k' hk']
    | false =>
      rw [hgone, Bool.false_or] at hon
      obtain ⟨k', hk', hlost⟩ := hloses.lost c hon
      rw [hrel.kept c hgone] at hk'
      rw [hlost, hslot k' hk']

/-- From `s` to `t` frame `f` has become FAULTED: its sources have left their streams, its view is released, its operations are stale and its
cursors LOST. -/
structure State.Faults (s t : State) (f : FrameId) : Prop where
  only     : t = { s with
    frames := t.frames, sources := t.sources, views := t.views, pool := t.pool, groups := t.groups, seamQueue := t.seamQueue
    engine := t.engine, writeQueue := t.writeQueue, holders := t.holders, seamHolder := t.seamHolder, cursors := t.cursors
    clients := t.clients, ports := t.ports }
  frame    : t.frame f = { s.frame f with
    state := .faulted, stamp := next16 (s.frame f).stamp, enable := false, pendingMark := false, settleTimer := none
    joined := .replicate 3 false, view := none, mosaic := none, pins := (t.frame f).pins, rowMap := (t.frame f).rowMap }
  explicit : (t.frame f).pins.explicit = (s.frame f).pins.explicit
  states   : (t.frame f).rowMap.map RowEntry.state = (s.frame f).rowMap.map RowEntry.state
  views    : ∀ v, (s.frame f).view = some v → t.view v = none
  pool     : ∀ p, t.poolRow p = (s.poolRow p).filter (fun h => decide ((s.frame f).view ≠ some h.view))
  stale    : ∀ w ∈ t.writeQueue, w.slot = f → w.stale = true
  held     : ∀ i, (t.source i).held = (s.source i).held
  sources  : ∀ (i : SourceId) b, (s.frame f).joined[i.val] = true → (s.source i).binding = some b → t.source i = (s.source i).faulted
    ∧ ∀ m, (s.client m).levels[(7 : Fin 16)] ≠ 0 → t.hasFiled m (.source i) (.sourceEnd b.frame b.pass .lost)
  lost     : ∀ c k, (s.cursor c).slot = .opened k → k.attachment = .current f ∨ k.attachment = .previous f →
    (t.cursor c).slot = .lost k ∧ (t.cursor c).job = none
  cuts     : s.CutsOff t
  notices  : s.SaysOnly [7, 10, 11, 12] t

theorem State.faultFrame_faults {s : State} {f : FrameId} (h : (s.frame f).state.canFault = true) : s.Faults (s.faultFrame f) f := by
  rw [State.faultFrame_of_canFault h]
  have haframe : (s.modifyFrame f Frame.unjoined).frame f = (s.frame f).unjoined := by rw [State.modifyFrame_eq, State.frame_setFrame_self]
  have haonly : s.modifyFrame f Frame.unjoined = { s with frames := (s.modifyFrame f Frame.unjoined).frames } := rfl
  generalize s.modifyFrame f Frame.unjoined = a at haframe haonly ⊢
  have hfaults := a.faultSources_spec (s.frame f).joined
  generalize a.faultSources (s.frame f).joined = b at hfaults ⊢
  have hstale : ∀ w ∈ (b.staleOps f).writeQueue, w.slot = f → w.stale = true := fun w hw hslot => State.mem_staleOps hw hslot
  have hconly : b.staleOps f = { b with writeQueue := (b.staleOps f).writeQueue } := rfl
  generalize b.staleOps f = c at hstale hconly ⊢
  have hclears := c.releaseView_loseCursors_clears f .faulted
  generalize (c.releaseView f .faulted).loseCursors (fun c => c.onFrame f) .faulted = l at hclears ⊢
  have hmoved := l.tellGone_remosaics f .faulted
  obtain ⟨retain, hgframe⟩ := l.frame_tellGone_self f .faulted
  generalize l.tellGone f .faulted = g at hmoved hgframe ⊢
  have hmarked := g.faultReads_marksReads f
  generalize g.faultReads f = v at hmarked ⊢
  have htframe : (v.modifyFrame f (fun x => { x with state := .faulted }.stamped)).frame f = ({ v.frame f with state := .faulted } : Frame).stamped := by
    rw [State.modifyFrame_eq, State.frame_setFrame_self]
  have hvonly : v.modifyFrame f (fun x => { x with state := .faulted }.stamped)
    = { v with frames := (v.modifyFrame f (fun x => { x with state := .faulted }.stamped)).frames } := rfl
  generalize v.modifyFrame f (fun x => { x with state := .faulted }.stamped) = t at htframe hvonly ⊢
  -- The tables before and after the loss of view and cursors
  have hsonly : c = { s with frames := c.frames, sources := c.sources, clients := c.clients, writeQueue := c.writeQueue } := by
    rw [hconly, hfaults.only, haonly]
  have htonly : t = { l with
      frames := t.frames, groups := t.groups, seamQueue := t.seamQueue, engine := t.engine, holders := t.holders
      seamHolder := t.seamHolder, cursors := t.cursors, clients := t.clients } := by
    rw [hvonly, hmarked.only, hmoved.only]
  have hcframe : c.frame f = (s.frame f).unjoined := by
    rw [← haframe]
    simp only [State.frame, congrArg State.frames hconly, congrArg State.frames hfaults.only]
  have hvframe : v.frame f = g.frame f := by simp only [State.frame, congrArg State.frames hmarked.only]
  have htsource : ∀ i, t.source i = b.source i := fun i => by
    simp only [State.source, congrArg State.sources htonly, congrArg State.sources hclears.only, congrArg State.sources hconly]
  have hasource : ∀ i, a.source i = s.source i := fun i => by simp only [State.source, congrArg State.sources haonly]
  have haclient : ∀ n, a.client n = s.client n := fun n => by simp only [State.client, congrArg State.clients haonly]
  have hccursor : ∀ d, c.cursor d = s.cursor d := fun d => by simp only [State.cursor, congrArg State.cursors hsonly]
  have htcursor : ∀ d, t.cursor d = v.cursor d := fun d => by simp only [State.cursor, congrArg State.cursors hvonly]
  have hsays : b.SaysOnly [10, 11, 12] t := by
    have hbc : b.SaysOnly [10, 11, 12] c := .of_eq (congrArg State.clients hconly :)
    have hgv : g.SaysOnly [10, 11, 12] v := .of_eq (congrArg State.clients hmarked.only :)
    have hvt : v.SaysOnly [10, 11, 12] t := .of_eq (congrArg State.clients hvonly :)
    exact (((hbc.trans (hclears.notices.mono (by decide))).trans (hmoved.notices.mono (by decide))).trans hgv).trans hvt
  have hcuts : s.CutsOff t := by
    have hsc : s.CutsOff c := .of_eq (congrArg State.cursors hsonly :) (congrArg State.ports hsonly :)
    have hvt : v.CutsOff t := .of_eq (congrArg State.cursors hvonly :) (congrArg State.ports hvonly :)
    exact (((hsc.trans hclears.cuts).trans hmoved.cutsOff).trans hmarked.cutsOff).trans hvt
  obtain ⟨m, r, hlframe, hmstates⟩ := hclears.frame
  refine ⟨?_, ?_, ?_, ?_, fun w hw => ?_, fun p => ?_, fun w hw => ?_, fun i => ?_, fun i x hi hx => ?_, fun d k hk ha => ?_, hcuts, ?_⟩
  · rw [htonly, hclears.only, hsonly]
  · rw [htframe, hvframe, hgframe, hlframe, hcframe]
    rfl
  · rw [htframe, hvframe, hgframe, hlframe, hcframe]
    rfl
  · rw [hcframe] at hmstates
    rw [htframe, hvframe, hgframe, hlframe]
    exact hmstates
  · have hkept : t.view w = l.view w := by simp only [State.view, congrArg State.views htonly]
    rw [hkept]
    exact hclears.views w (by rw [hcframe]; exact hw)
  · have hkept : t.poolRow p = l.poolRow p := by simp only [State.poolRow, congrArg State.pool htonly]
    have hbefore : c.poolRow p = s.poolRow p := by simp only [State.poolRow, congrArg State.pool hsonly]
    rw [hkept, hclears.pool, hbefore, hcframe]
    rfl
  · rw [congrArg State.writeQueue htonly, congrArg State.writeQueue hclears.only] at hw
    exact hstale w hw
  · rw [htsource, hfaults.held, hasource]
  · obtain ⟨hsource, htold⟩ := hfaults.faulted i x hi (by rw [hasource]; exact hx)
    refine ⟨by rw [htsource, hsource, hasource], fun n hn => hsays.hasFiled (htold n (by rw [haclient]; exact hn)) ?_⟩
    exact show (7 : Fin 16) ∉ [10, 11, 12] by decide
  · have hlost := hclears.lost d k (by rw [hccursor]; exact hk) ha
    have hjob := hmarked.jobs d
    rw [hmoved.cursor, hlost] at hjob
    rw [htcursor, hmarked.slots, hmoved.cursor, hlost]
    exact ⟨rfl, Option.isNone_iff_eq_none.mp (Option.isSome_eq_false_iff.mp hjob)⟩
  · have hsa : s.SaysOnly [7, 10, 11, 12] a := .of_eq (congrArg State.clients haonly :)
    exact (hsa.trans (hfaults.notices.mono (by decide))).trans (hsays.mono (by decide))

end Sys2Proof.Machine
end

section
/-! SUPPORT. A write, a copy or a read that ends in a memory error (R61, R62, R65, R122, R123): what it leaves before FC takes the error. -/

namespace Sys2Proof.Machine

/-! ### What an operation or a read gives back as it returns -/

/-- From `s` to `t` operations and reads have returned: places, holders and pool rows may have become free and heads ready. -/
structure State.Returns (s t : State) : Prop where
  only    : t = { s with
    sources := t.sources, views := t.views, pool := t.pool, writeQueue := t.writeQueue, holders := t.holders, seamHolder := t.seamHolder
    answerFloor := t.answerFloor, late := t.late }
  sources : ∀ i, (s.source i).SameButHead (t.source i)
  pool    : ∀ p, t.poolRow p = none ∨ t.poolRow p = s.poolRow p

section Returns
variable {s t u : State}

theorem State.Returns.trans (h : s.Returns t) (k : t.Returns u) : s.Returns u where
  only := by rw [k.only, h.only]
  sources i := (h.sources i).trans (k.sources i)
  pool p := by
    rcases k.pool p with hu | hu
    · exact .inl hu
    · rw [hu]
      exact h.pool p

theorem State.Returns.rowEntry (h : s.Returns t) (f : FrameId) (row : Nat) : t.rowEntry f row = s.rowEntry f row := by
  unfold State.rowEntry State.frame
  rw [h.only]

theorem State.Returns.frame (h : s.Returns t) (f : FrameId) : t.frame f = s.frame f := by
  unfold State.frame
  rw [h.only]

theorem State.Returns.refl (s : State) : s.Returns s := ⟨rfl, fun _ => rfl, fun _ => .inr rfl⟩

end Returns

theorem State.answered_returns (s : State) (n : Nat) : s.Returns (s.answered n) := ⟨rfl, fun _ => rfl, fun _ => .inr rfl⟩

theorem State.rememberLate_returns (s : State) (n : Nat) (o : Option WriteOp) : s.Returns (s.rememberLate n o) := by
  unfold State.rememberLate
  split
  · exact ⟨rfl, fun _ => rfl, fun _ => .inr rfl⟩
  · exact .refl s

theorem State.retireOp_returns (s : State) (n : Nat) : s.Returns (s.retireOp n) :=
  ⟨rfl, (s.retireOp_tracks n).sources, fun _ => .inr rfl⟩

theorem State.readyStalled_returns (s : State) (f : FrameId) (row : Nat) : s.Returns (s.readyStalled f row) :=
  ⟨rfl, (s.readyStalled_tracks f row).sources, fun _ => .inr rfl⟩

theorem State.emptyHolder_returns (s : State) (h : ReadHolder) : s.Returns (s.emptyHolder h) := by
  cases h <;> exact ⟨rfl, fun _ => rfl, fun _ => .inr rfl⟩

theorem State.returnPoolRow_returns (s : State) (p : PoolRow) (f : FrameId) (row : Nat) : s.Returns (s.returnPoolRow p f row) := by
  unfold State.returnPoolRow
  split
  · exact .refl s
  · split
    · refine ⟨rfl, fun _ => rfl, fun q => ?_⟩
      rw [State.modifyView_eq, State.poolRow_setView, State.poolRow_setPoolRow]
      split
      · exact .inl rfl
      · exact .inr rfl
    · exact .refl s

/-! ### The row a failure leaves -/

/-- From `s` to `m` an operation or a read of the row has returned, and the row is in state `left`. -/
structure State.LeavesRow (s m : State) (f : FrameId) (row : Nat) (left : RowState) : Prop where
  only    : m = { s with
    frames := m.frames, sources := m.sources, views := m.views, pool := m.pool, writeQueue := m.writeQueue, holders := m.holders
    seamHolder := m.seamHolder, answerFloor := m.answerFloor, late := m.late }
  frame   : m.frame f = { s.frame f with
    rowMap := (m.frame f).rowMap, coverage := (m.frame f).coverage, missed := (m.frame f).missed, damaged := (m.frame f).damaged }
  states  : (m.frame f).rowMap.map RowEntry.state = ((s.frame f).rowMap.map RowEntry.state).set row left
  sources : ∀ i, (s.source i).SameButHead (m.source i)
  pool    : ∀ p, m.poolRow p = none ∨ m.poolRow p = s.poolRow p

theorem State.Returns.leavesRow {s u m : State} {f : FrameId} {row : Nat} {old e : RowEntry} (h : s.Returns u)
    (hold : s.rowEntry f row = some old) (k : (u.setRow f row e).Returns m) : s.LeavesRow m f row e.state := by
  have hset := State.setRow_of_rowEntry (s := u) (by rw [h.rowEntry]; exact hold) e
  rw [hset] at k
  have hframe := k.frame f
  rw [State.frame_setFrame_self, h.frame] at hframe
  refine ⟨?_, ?_, ?_, fun i => (h.sources i).trans (k.sources i), fun p => ?_⟩
  · rw [k.only, h.only]
    rfl
  · rw [hframe]
    rfl
  · rw [hframe]
    exact List.map_set
  · rcases k.pool p with hm | hm
    · exact .inl hm
    · rw [hm]
      exact h.pool p

/-- Command `c` takes FC to a memory error of the row, which is left in state `left`; what then follows is the answer to a read, and the end of
the event. -/
def State.FailsRow (s : State) (c : Instr) (f : FrameId) (row : Nat) (left : RowState) (e : ErrorReport) : Prop :=
  ∃ m u, s.LeavesRow m f row left ∧ (m.memoryError f row e).GoesOn u ∧ exec c s = .next u.closeEvent

section Fails
variable {s u : State} {c : Instr} {f : FrameId} {row : Nat} {e : RowEntry}

theorem State.landRow_leavesRow (hu : s.Returns u) (he : s.rowEntry f row = some e) {g : RowEntry → RowEntry} {left : RowState}
    (hleft : (g e).state = left) : s.LeavesRow (u.landRow f row g) f row left := by
  have hland : u.landRow f row g = (u.setRow f row { g e with inFlight := .no }).readyStalled f row := by
    unfold State.landRow
    rw [hu.rowEntry, he]
  rw [hland, ← hleft]
  exact hu.leavesRow (e := { g e with inFlight := .no }) he (State.readyStalled_returns _ f row)

/-! ### Writes and copies (R61, R65) -/

theorem State.failWrite_failsRow {o : WriteOp} (hfresh : o.stale = false) (he : s.rowEntry o.slot o.row = some e) (hu : s.Returns u)
    (kind : ErrorKind) (hc : exec c s = .next (u.failWrite o kind).closeEvent) :
    s.FailsRow c o.slot o.row (.damaged o.pass) (memoryReport kind o.slot o.row o.pass 1) := by
  have hleaves := State.landRow_leavesRow hu he (g := fun e => { e with state := .damaged o.pass }) rfl
  refine ⟨_, _, hleaves, .refl _, ?_⟩
  rw [hc, State.failWrite, hfresh, if_neg (by decide)]

theorem State.failCopy_failsRow {o : WriteOp} (hfresh : o.stale = false) (he : s.rowEntry o.slot o.row = some e) (hu : s.Returns u)
    (p : PoolRow) (kind : ErrorKind) (hc : exec c s = .next (u.failCopy o p kind).closeEvent) :
    s.FailsRow c o.slot o.row e.state (memoryReport kind o.slot o.row o.pass 2) := by
  have hleaves := State.landRow_leavesRow (hu.trans (u.returnPoolRow_returns p o.slot o.row)) he (g := fun e => { e with lost := true }) rfl
  refine ⟨_, _, hleaves, .refl _, ?_⟩
  rw [hc, State.failCopy, hfresh, if_neg (by decide)]

theorem State.corruptCopy_failsRow {o : WriteOp} (hfresh : o.stale = false) (he : s.rowEntry o.slot o.row = some e) (hu : s.Returns u)
    (p : PoolRow) (hc : exec c s = .next (u.corruptCopy o p).closeEvent) :
    s.FailsRow c o.slot o.row (.damaged (e.state.passOf.getD (s.frame o.slot).pass))
      (memoryReport .readCorrupt o.slot o.row (e.state.passOf.getD (s.frame o.slot).pass) 3) := by
  have hleaves := State.landRow_leavesRow (hu.trans (u.returnPoolRow_returns p o.slot o.row)) he
    (g := fun e => e.copyCorrupt (s.frame o.slot).pass) rfl
  refine ⟨_, _, hleaves, .refl _, ?_⟩
  rw [hc, State.corruptCopy, hfresh, if_neg (by decide), hu.frame, hu.rowEntry, he]
  rfl

/-! ### Reads (R62, R122, R123) -/

theorem State.reportCorrupt_leavesRow {h : ReadHolder} {r : ReadRequest} (he : s.rowEntry r.slot r.row = some e) (hu : s.Returns u)
    (hfate : r.fate ≠ .vanished) (noAnswer : Bool) :
    (r.pool = none → ∃ m, s.LeavesRow m r.slot r.row (.damaged (e.state.passOf.getD (s.frame r.slot).pass))
        ∧ u.reportCorrupt h r noAnswer = m.memoryError r.slot r.row (memoryReport .readCorrupt r.slot r.row
          (e.state.passOf.getD (s.frame r.slot).pass) (corruptDetail h false noAnswer)))
      ∧ ∀ p, r.pool = some p → r.viewGone = false → ∃ m, s.LeavesRow m r.slot r.row e.state
        ∧ u.reportCorrupt h r noAnswer = m.memoryError r.slot r.row (memoryReport .readCorrupt r.slot r.row
          (s.memoryByte (poolBase p + drumBytes r.drum + 4)).toNat (corruptDetail h true noAnswer)) := by
  have hentry : u.rowEntry r.slot r.row = some e := by rw [hu.rowEntry, he]
  constructor
  · intro hslot
    refine ⟨_, hu.leavesRow (e := { e with state := .damaged (e.state.passOf.getD (s.frame r.slot).pass) }) he (.refl _), ?_⟩
    simp only [State.reportCorrupt, if_neg hfate, hslot, State.readCorrupt, hentry, hu.frame]
  · intro p hpool hview
    have hleaves : s.LeavesRow _ r.slot r.row ({ e with preserved := none, lost := true } : RowEntry).state :=
      hu.leavesRow he (State.returnPoolRow_returns _ p r.slot r.row)
    have hpass : u.keptPass p r.drum = (s.memoryByte (poolBase p + drumBytes r.drum + 4)).toNat := by
      simp only [State.keptPass, State.memoryByte, congrArg State.memory hu.only, congrArg State.powerOns hu.only]
    refine ⟨_, hleaves, ?_⟩
    simp only [State.reportCorrupt, if_neg hfate, hpool, hview, State.poolCorrupt, hentry, hpass]
    rfl

/-- A read returns without its data, or with a wrong check word. -/
theorem State.returnRead_failsRow {h : ReadHolder} {r : ReadRequest} {bytes : Option (List Byte)} {detail pass : Nat} {left : RowState}
    (he : s.rowEntry r.slot r.row = some e) (hu : s.Returns u) (hwrong : bytes.filter (fun b => r.checks b) = none) (hfate : r.fate ≠ .vanished)
    (hc : exec c s = .next (u.returnRead h r bytes).closeEvent)
    (hrow : (r.pool = none ∧ left = .damaged (e.state.passOf.getD (s.frame r.slot).pass) ∧ pass = e.state.passOf.getD (s.frame r.slot).pass
          ∧ detail = corruptDetail h false bytes.isNone)
      ∨ ∃ p, r.pool = some p ∧ r.viewGone = false ∧ left = e.state
          ∧ pass = (s.memoryByte (poolBase p + drumBytes r.drum + 4)).toNat ∧ detail = corruptDetail h true bytes.isNone) :
    s.FailsRow c r.slot r.row left (memoryReport .readCorrupt r.slot r.row pass detail) := by
  obtain ⟨hslot, hpool⟩ := State.reportCorrupt_leavesRow (h := h) he (hu.trans (u.emptyHolder_returns h)) hfate bytes.isNone
  have hanswered : ∀ m, (u.emptyHolder h).reportCorrupt h r bytes.isNone = m → exec c s = .next (m.answerRead h r none).closeEvent := by
    rintro m rfl
    rw [hc, State.returnRead, hwrong]
    rfl
  rcases hrow with ⟨hnone, rfl, rfl, rfl⟩ | ⟨p, hp, hview, rfl, rfl, rfl⟩
  · obtain ⟨m, hleaves, hm⟩ := hslot hnone
    exact ⟨m, _, hleaves, State.answerRead_goesOn _ h r none, hanswered _ hm⟩
  · obtain ⟨m, hleaves, hm⟩ := hpool p hp hview
    exact ⟨m, _, hleaves, State.answerRead_goesOn _ h r none, hanswered _ hm⟩

end Fails

/-! ### The commands -/

section Commands
variable {s : State} {n : Nat} {o : WriteOp}

theorem State.answerableOp_of_issued (hfloor : s.answerFloor ≤ n) (ho : s.issuedOp n = some o) : s.answerableOp n = some o := by
  rw [State.answerableOp, if_pos hfloor, ho]

theorem exec_writeFailed {payload : List Byte} (ho : s.answerableOp n = some o) (hk : o.kind = .rowWrite payload) :
    exec (.writeFailed n) s = .next ((s.reportOp n).failWrite o .writeFailed).closeEvent := by
  show execWriteFailed n s = _
  simp only [execWriteFailed, ho, hk]

theorem exec_copyFailed {p : PoolRow} {l : LineInfo} (ho : s.answerableOp n = some o) (hk : o.kind = .rowCopy p l) :
    exec (.copyFailed n) s = .next ((s.reportOp n).failCopy o p .writeFailed).closeEvent := by
  show execCopyFailed n s = _
  simp only [execCopyFailed, ho, hk]

theorem exec_copyReadCorrupt {p : PoolRow} {l : LineInfo} (ho : s.answerableOp n = some o) (hk : o.kind = .rowCopy p l) :
    exec (.copyReadCorrupt n) s = .next ((s.reportOp n).corruptCopy o p).closeEvent := by
  show execCopyReadCorrupt n s = _
  simp only [execCopyReadCorrupt, ho, hk]

theorem exec_confirmationTimeout_write {payload : List Byte} (ho : s.issuedOp n = some o) (hk : o.kind = .rowWrite payload) :
    exec (.confirmationTimeout n) s = .next (((s.rememberLate n (some o)).retireOp n).failWrite o .writeTimeout).closeEvent := by
  show execConfirmationTimeout n s = _
  simp only [execConfirmationTimeout, ho, hk]

theorem exec_confirmationTimeout_copy {p : PoolRow} {l : LineInfo} (ho : s.issuedOp n = some o) (hk : o.kind = .rowCopy p l) :
    exec (.confirmationTimeout n) s = .next (((s.rememberLate n (some o)).retireOp n).failCopy o p .writeTimeout).closeEvent := by
  show execConfirmationTimeout n s = _
  simp only [execConfirmationTimeout, ho, hk]

theorem exec_readData {h : ReadHolder} {r : ReadRequest} (hr : s.holder h = some r) (hi : r.issued = some n) (hfloor : s.answerFloor ≤ n)
    (bytes : List Byte) : exec (.readData h (some bytes)) s = .next ((s.answered n).returnRead h r (some bytes)).closeEvent := by
  show execReadData h (some bytes) s = _
  simp only [execReadData, hr, hi, Option.getD_some]
  rw [if_neg (Nat.not_lt.mpr hfloor)]

theorem exec_readTimeout {h : ReadHolder} {r : ReadRequest} (hr : s.holder h = some r) (hi : r.issued = some n) :
    exec (.readTimeout h) s = .next ((s.rememberLate n none).returnRead h r none).closeEvent := by
  show execReadTimeout h s = _
  simp only [execReadTimeout, hr, hi]

/-- Every command that a memory error ends takes FC to it. -/
theorem State.memoryFails.failsRow {c : Instr} {f : FrameId} {row : Nat} {e : RowEntry} {left : RowState} {kind : ErrorKind} {pass detail : Nat}
    (h : s.memoryFails c f row e left kind pass detail) (he : s.rowEntry f row = some e) :
    s.FailsRow c f row left (memoryReport kind f row pass detail) := by
  have hreported : ∀ n, s.Returns (s.reportOp n) := fun n => (s.answered_returns n).trans (State.retireOp_returns _ n)
  have hexpired : ∀ n o, s.Returns ((s.rememberLate n o).retireOp n) := fun n o =>
    (s.rememberLate_returns n o).trans (State.retireOp_returns _ n)
  rcases h with ⟨n, o, ho, rfl, rfl, hfresh, hop⟩ | ⟨h, m, r, noAnswer, hr, hi, rfl, rfl, hfate, rfl, hcommand, hrow⟩
  · rcases hop with ⟨⟨payload, hk⟩, rfl, rfl, rfl, hcommand⟩ | ⟨⟨p, l, hk⟩, hcopy⟩
    · rcases hcommand with ⟨rfl, hfloor, rfl⟩ | ⟨rfl, rfl⟩
      · exact State.failWrite_failsRow hfresh he (hreported n) _ (exec_writeFailed (State.answerableOp_of_issued hfloor ho) hk)
      · exact State.failWrite_failsRow hfresh he (hexpired n _) _ (exec_confirmationTimeout_write ho hk)
    · rcases hcopy with ⟨rfl, rfl, rfl, ⟨rfl, hfloor, rfl⟩ | ⟨rfl, rfl⟩⟩ | ⟨rfl, rfl, rfl, rfl, hfloor, rfl⟩
      · exact State.failCopy_failsRow hfresh he (hreported n) p _ (exec_copyFailed (State.answerableOp_of_issued hfloor ho) hk)
      · exact State.failCopy_failsRow hfresh he (hexpired n _) p _ (exec_confirmationTimeout_copy ho hk)
      · exact State.corruptCopy_failsRow hfresh he (hreported n) p (exec_copyReadCorrupt (State.answerableOp_of_issued hfloor ho) hk)
  · have hreturns : ∃ u bytes, s.Returns u ∧ bytes.filter (fun b => r.checks b) = none ∧ bytes.isNone = noAnswer
        ∧ exec c s = .next (u.returnRead h r bytes).closeEvent := by
      rcases hcommand with ⟨rfl, hfloor, bytes, rfl, hwrong⟩ | ⟨rfl, rfl⟩
      · exact ⟨_, some bytes, s.answered_returns m, by simp [Option.filter, hwrong], rfl, exec_readData hr hi hfloor bytes⟩
      · exact ⟨_, none, s.rememberLate_returns m none, rfl, rfl, exec_readTimeout hr hi⟩
    obtain ⟨u, bytes, hu, hwrong, rfl, hexec⟩ := hreturns
    refine State.returnRead_failsRow he hu hwrong hfate hexec (hrow.imp ?_ ?_)
    · exact fun ⟨hpool, hleft, hpass, hdetail⟩ => ⟨hpool, hleft, hpass, hdetail.trans (by cases h <;> cases bytes <;> rfl)⟩
    · exact fun ⟨p, hpool, hview, hleft, hpass, hdetail⟩ => ⟨p, hpool, hview, hleft, hpass, hdetail.trans (by cases h <;> cases bytes <;> rfl)⟩

end Commands

end Sys2Proof.Machine
end

section
/-! Settles O38: a second memory error on a marked frame (R43, R79, R133, R154), from the errors' filing to the end of the event. -/

namespace Sys2Proof.Machine

/-! ### The errors filed (R128, R129) -/

theorem State.logError_only (s : State) (e : ErrorReport) : s.logError e = { s with
    errors := (s.logError e).errors, logCounter := (s.logError e).logCounter, clients := (s.logError e).clients } := by
  unfold State.logError State.fileError
  rw [State.raise_eq]
  unfold State.enqueueError
  split <;> rfl

/-- An error is filed in the queue alike where queue, log number and time are alike. -/
theorem State.logError_congr {s t : State} (herrors : t.errors = s.errors) (hcounter : t.logCounter = s.logCounter) (hclock : t.clock = s.clock)
    (e : ErrorReport) : (t.logError e).errors = (s.logError e).errors ∧ (t.logError e).logCounter = (s.logError e).logCounter := by
  unfold State.logError State.fileError
  rw [State.raise_eq, State.raise_eq]
  unfold State.enqueueError State.newRecord
  rw [herrors, hcounter, hclock]
  split <;> exact ⟨rfl, rfl⟩

theorem State.logError_saysOnly (s : State) (e : ErrorReport) : s.SaysOnly [13] (s.logError e) := by
  have hqueued : s.SaysOnly [13] (s.enqueueError e false) := .of_eq (s.clients_enqueueError e false)
  exact hqueued.trans (.raise _ _ (show (13 : Fin 16) ∈ [13] by decide))

/-! ### The course of the event -/

/-- The report of a frame that becomes FAULTED (R128, R133). -/
def frameFaultReport (f : FrameId) (row pass code : Nat) : ErrorReport :=
  { kind := .frameFaulted, origin := .frame f, frame := some f, row := some row, pass := some pass, detail := code }

theorem State.memoryError_of_marked {s : State} {f : FrameId} (hcan : (s.frame f).state.canFault = true) (hmark : (s.frame f).memoryError = true)
    (row : Nat) (e : ErrorReport) : s.memoryError f row e =
      ((((s.logError e).faultFrame f).logError (frameFaultReport f row (s.frame f).pass e.kind.code)).raise (.frame f)
        (.frameFaulted (s.frame f).pass e.kind.code)) := by
  rw [State.memoryError, if_pos hcan, if_pos hmark]
  rfl

/-- From `s` to `t` an operation or a read has left its row, which is `m`; the error is filed and the frame FAULTED, which is `a`; and the fault is
filed and raised, and what follows the event has gone on. -/
structure State.Escalates (s m a t : State) (f : FrameId) (row : Nat) (left : RowState) (e : ErrorReport) (code : Nat) : Prop where
  leaves : s.LeavesRow m f row left
  faults : (m.logError e).Faults a f
  pairs  : (m.logError e).KeepsErrorPairs a
  ends   : ((a.logError (frameFaultReport f row (s.frame f).pass code)).raise (.frame f) (.frameFaulted (s.frame f).pass code)).GoesOn t

section Escalates
variable {s m a t : State} {f : FrameId} {row code : Nat} {left : RowState} {e : ErrorReport}

theorem State.FailsRow.escalates {c : Instr} (h : s.FailsRow c f row left e) (hcan : (s.frame f).state.canFault = true)
    (hmark : (s.frame f).memoryError = true) (hheld : ∀ i, (s.source i).held = none) :
    ∃ m a t, s.Escalates m a t f row left e e.kind.code ∧ exec c s = .next t := by
  obtain ⟨m, u, hleaves, hgoes, hexec⟩ := h
  have hmcan : (m.frame f).state.canFault = true := by rw [hleaves.frame]; exact hcan
  have hmmark : (m.frame f).memoryError = true := by rw [hleaves.frame]; exact hmark
  have hmpass : (m.frame f).pass = (s.frame f).pass := by rw [hleaves.frame]
  have hframe : (m.logError e).frame f = m.frame f := by simp only [State.frame, congrArg State.frames (m.logError_only e)]
  have hfaults := State.faultFrame_faults (s := m.logError e) (f := f) (by rw [hframe]; exact hmcan)
  have hpairs := (m.logError e).faultFrame_keepsErrorPairs f
  rw [State.memoryError_of_marked hmcan hmmark, hmpass] at hgoes
  generalize (m.logError e).faultFrame f = a at hfaults hpairs hgoes
  have hstarts : u.noStartWaits := fun i hi => by
    have hu : (u.source i).held = (a.source i).held := by rw [hgoes.source, State.source_raise, State.logError_source]
    have hm : (m.source i).held = (s.source i).held := by rw [hleaves.sources i]
    rw [hu, hfaults.held, State.logError_source, hm] at hi
    exact absurd (hheld i) hi
  exact ⟨m, a, _, ⟨hleaves, hfaults, hpairs, hgoes.trans (State.closeEvent_goesOn hstarts)⟩, hexec⟩

variable (h : s.Escalates m a t f row left e code)
include h

/-- What is neither frame nor source nor of the controller is as it was when the error was filed. -/
theorem State.Escalates.only_before : m.logError e = { s with
    frames := m.frames, sources := m.sources, views := m.views, pool := m.pool, writeQueue := m.writeQueue, holders := m.holders
    seamHolder := m.seamHolder, answerFloor := m.answerFloor, late := m.late, errors := (m.logError e).errors
    logCounter := (m.logError e).logCounter, clients := (m.logError e).clients } := by
  rw [m.logError_only e, h.leaves.only]

/-- What the frame's fault has done stays. -/
theorem State.Escalates.only_after : t = { a with
    errors := t.errors, logCounter := t.logCounter, clients := t.clients, groups := t.groups, seamQueue := t.seamQueue, engine := t.engine
    holders := t.holders, seamHolder := t.seamHolder, cursors := t.cursors, ports := t.ports } := by
  rw [h.ends.only, State.raise_eq, State.logError_only]

theorem State.Escalates.client_before (n : ClientId) : (m.client n) = s.client n := by
  simp only [State.client, congrArg State.clients h.leaves.only]

theorem State.Escalates.cursor_before (c : CursorId) : (m.logError e).cursor c = s.cursor c := by
  simp only [State.cursor, congrArg State.cursors h.only_before]

theorem State.Escalates.frame_before : (m.logError e).frame f = m.frame f := by
  simp only [State.frame, congrArg State.frames h.only_before]

theorem State.Escalates.memory : t.memory = s.memory := by
  simp only [congrArg State.memory h.only_after, congrArg State.memory h.faults.only, congrArg State.memory h.only_before]

/-- The frame and its rows. -/
theorem State.Escalates.frame : t.frame f = { s.frame f with
      state := .faulted, stamp := next16 (s.frame f).stamp, enable := false, pendingMark := false
      settleTimer := none, joined := .replicate 3 false, view := none, mosaic := none, pins := (t.frame f).pins
      rowMap := (t.frame f).rowMap, coverage := (t.frame f).coverage, missed := (t.frame f).missed
      damaged := (t.frame f).damaged }
    ∧ (t.frame f).pins.explicit = (s.frame f).pins.explicit
    ∧ (t.frame f).rowMap.map RowEntry.state = ((s.frame f).rowMap.map RowEntry.state).set row left := by
  have hta : t.frame f = a.frame f := by simp only [State.frame, congrArg State.frames h.only_after]
  rw [hta]
  refine ⟨?_, ?_, ?_⟩
  · rw [h.faults.frame, h.frame_before, h.leaves.frame]
  · rw [h.faults.explicit, h.frame_before, h.leaves.frame]
  · rw [h.faults.states, h.frame_before, h.leaves.states]

/-- The frame's view and its pool rows (R92). -/
theorem State.Escalates.view {v : ViewId} (hv : (s.frame f).view = some v) :
    t.view v = none ∧ ∀ p x, s.poolRow p = some x → x.view = v → t.poolRow p = none := by
  have hview : ((m.logError e).frame f).view = some v := by rw [h.frame_before, h.leaves.frame]; exact hv
  have htview : t.view v = a.view v := by simp only [State.view, congrArg State.views h.only_after]
  refine ⟨htview.trans (h.faults.views v hview), fun p x hx hxv => ?_⟩
  have htpool : t.poolRow p = a.poolRow p := by simp only [State.poolRow, congrArg State.pool h.only_after]
  have hmpool : (m.logError e).poolRow p = m.poolRow p := by simp only [State.poolRow, congrArg State.pool h.only_before]
  rw [htpool, h.faults.pool, hmpool, hview]
  rcases h.leaves.pool p with hm | hm
  · rw [hm]
    rfl
  · rw [hm, hx]
    simp [Option.filter, hxv]

/-- A source joined to the frame (R43). -/
theorem State.Escalates.source {i : SourceId} {b : StreamBinding} (hi : (s.frame f).joined[i.val] = true) (hb : (s.source i).binding = some b) :
    (t.source i).binding = none ∧ (t.source i).ring = [] ∧ (t.source i).head = .ready
      ∧ (t.source i).state = (s.source i).state.afterFault
      ∧ ∀ n, (s.client n).levels[(7 : Fin 16)] ≠ 0 → t.hasFiled n (.source i) (.sourceEnd b.frame b.pass .lost) := by
  have hta : t.source i = a.source i := by simp only [State.source, congrArg State.sources h.only_after]
  have hm : (m.logError e).source i = { s.source i with head := (m.source i).head } := by
    rw [State.logError_source]
    exact h.leaves.sources i
  have hjoined : ((m.logError e).frame f).joined[i.val] = true := by rw [h.frame_before, h.leaves.frame]; exact hi
  obtain ⟨hfaulted, htold⟩ := h.faults.sources i b hjoined (by rw [hm]; exact hb)
  rw [hta, hfaulted, hm]
  refine ⟨rfl, rfl, rfl, rfl, fun n hn => ?_⟩
  have hraised := (a.logError_saysOnly (frameFaultReport f row (s.frame f).pass code)).hasFiled
    (htold n (by rw [(m.logError_saysOnly e).levels, h.client_before]; exact hn)) (show (7 : Fin 16) ∉ [13] by decide)
  exact h.ends.notices.hasFiled (hraised.raise (.inr nofun)) (show (7 : Fin 16) ∉ [10] by decide)

theorem State.Escalates.stale : ∀ w ∈ t.writeQueue, w.slot = f → w.stale = true := by
  rw [congrArg State.writeQueue h.only_after]
  exact h.faults.stale

/-- A cursor on the frame, and its command (R154). -/
theorem State.Escalates.cursor {c : CursorId} {k : CursorFields} (hk : (s.cursor c).slot = .opened k)
    (ha : k.attachment = .current f ∨ k.attachment = .previous f) :
    (t.cursor c).slot = .lost k ∧ (s.jobsOk → (s.cursor c).job.isSome = true → (t.cursor c).job = none
      ∧ (t.port (ownerOf c)).buffer = some { status := .lost, tag := (s.port (ownerOf c)).tag, body := [] }) := by
  obtain ⟨hlost, hnojob⟩ := h.faults.lost c k (by rw [h.cursor_before]; exact hk) ha
  have hfiled : ∀ u : State, ∀ r o d, ((u.logError r).raise o d).cursors = u.cursors ∧ ((u.logError r).raise o d).ports = u.ports :=
    fun u r o d => by
      rw [State.raise_eq, u.logError_only r]
      exact ⟨rfl, rfl⟩
  obtain ⟨hcursors, hports⟩ := hfiled a (frameFaultReport f row (s.frame f).pass code) (.frame f) (.frameFaulted (s.frame f).pass code)
  have hends := h.ends
  generalize (a.logError (frameFaultReport f row (s.frame f).pass code)).raise (.frame f) (.frameFaulted (s.frame f).pass code) = u
    at hcursors hports hends
  have hcursor : ∀ d, u.cursor d = a.cursor d := fun d => by simp only [State.cursor, hcursors]
  have hstays : t.cursor c = a.cursor c := by
    rw [hends.closed c (by rw [hcursor, Cursor.openFields, hlost]), hcursor]
  have hcuts : s.CutsOff a := by
    have hfirst : s.CutsOff (m.logError e) := .of_eq (congrArg State.cursors h.only_before :) (congrArg State.ports h.only_before :)
    exact hfirst.trans h.faults.cuts
  rw [hstays]
  refine ⟨hlost, fun hjobs hjob => ⟨hnojob, ?_⟩⟩
  have hport : t.port (ownerOf c) = u.port (ownerOf c) := hends.ports _ fun d hd => by
    rw [hcursor]
    exact hcuts.noneOf hjobs hjob hnojob d hd
  have hua : u.port (ownerOf c) = a.port (ownerOf c) := by simp only [State.port, hports]
  rw [hport, hua, hcuts.cut hjobs c hjob hnojob]

/-- The queue of errors, and the notices of them (R129, R131). -/
theorem State.Escalates.filed : t.errors = ((s.logError e).logError (frameFaultReport f row (s.frame f).pass code)).errors
    ∧ t.logCounter = ((s.logError e).logError (frameFaultReport f row (s.frame f).pass code)).logCounter
    ∧ ∀ n, ∀ p ∈ (((s.logError e).logError (frameFaultReport f row (s.frame f).pass code)).client n).pendingSet, p.detail.kindIndex = 13 →
      p ∈ (t.client n).pendingSet := by
  obtain ⟨hmerrors, hmcounter⟩ := State.logError_congr (s := s) (t := m) (congrArg State.errors h.leaves.only :)
    (congrArg State.logCounter h.leaves.only :) (congrArg State.clock h.leaves.only :) e
  have herrors : a.errors = (s.logError e).errors := by rw [congrArg State.errors h.faults.only, hmerrors]
  have hcounter : a.logCounter = (s.logError e).logCounter := by rw [congrArg State.logCounter h.faults.only, hmcounter]
  have hclock : a.clock = (s.logError e).clock := by
    rw [congrArg State.clock h.faults.only, congrArg State.clock h.only_before, congrArg State.clock (s.logError_only e)]
  obtain ⟨hfirst, hsecond⟩ := State.logError_congr herrors hcounter hclock (frameFaultReport f row (s.frame f).pass code)
  have hbefore : s.KeepsErrorPairs m := .of_eq (congrArg State.clients h.leaves.only :)
  have hmpairs := hbefore.logError (congrArg State.errors h.leaves.only :) e
  have hpairs := (hmpairs.trans h.pairs).logError herrors (frameFaultReport f row (s.frame f).pass code)
  refine ⟨?_, ?_, fun n p hp hk => ?_⟩
  · rw [congrArg State.errors h.ends.only, State.raise_eq, hfirst]
  · rw [congrArg State.logCounter h.ends.only, State.raise_eq, hsecond]
  · have hraised := State.KeepsErrorPairs.raise (a.logError (frameFaultReport f row (s.frame f).pass code)) (.frame f)
      (d := .frameFaulted (s.frame f).pass code) (show (4 : Fin 16) < 13 by decide)
    exact (h.ends.notices.pairs n p (by rw [hk]; decide)).mpr ((hpairs.trans hraised).mem hp hk)

/-- FRAME_FAULTED waits for whoever wants to know of it (R133). -/
theorem State.Escalates.told {n : ClientId} (hn : (s.client n).levels[(4 : Fin 16)] ≠ 0) :
    t.hasFiled n (.frame f) (.frameFaulted (s.frame f).pass code) := by
  have hlevels : ((a.logError (frameFaultReport f row (s.frame f).pass code)).client n).levels = (s.client n).levels := by
    rw [(State.logError_saysOnly _ _).levels, h.faults.notices.levels, (m.logError_saysOnly e).levels, h.client_before]
  refine h.ends.notices.hasFiled (State.raise_hasFiled _ ?_) (show (4 : Fin 16) ∉ [10] by decide)
  rw [hlevels]
  exact hn

end Escalates

theorem SourceState.afterFault_eq (x : SourceState) :
    x.afterFault = if x.inStream then .discarding else if x = .draining then .idle else x := by
  cases x <;> rfl

/-- Settles O38: the error is filed, the frame FAULTED with all that hangs on it, and the fault filed and raised; what follows the event takes
nothing of it back. -/
theorem secondMemoryErrorFaultsTheFrame : Obligations.SecondMemoryErrorFaultsTheFrame := by
  unfold Obligations.SecondMemoryErrorFaultsTheFrame
  intro c f row e left kind pass detail code s _ he hfails hcode hcan hmark hheld filed onFrame
  obtain rfl : kind.code = code := by
    rcases hcode with ⟨rfl, rfl⟩ | ⟨rfl, rfl⟩ | ⟨rfl, rfl⟩ <;> rfl
  obtain ⟨m, a, t, h, hexec⟩ := (hfails.failsRow he).escalates hcan hmark hheld
  obtain ⟨hframe, hexplicit, hstates⟩ := h.frame
  obtain ⟨herrors, hcounter, hpairs⟩ := h.filed
  refine ⟨t, hexec, h.memory, hframe, hexplicit, hstates, fun v hv => h.view hv, fun i b hi hb => ?_, h.stale,
    fun d k hk ha => (h.cursor hk ha).1, fun hjobs d k hk ha hjob => (h.cursor hk ha).2 hjobs hjob, herrors, hcounter, hpairs,
    fun n hn => h.told hn⟩
  obtain ⟨hbinding, hring, hhead, hstate, htold⟩ := h.source hi hb
  exact ⟨hbinding, hring, hhead, by rw [hstate, SourceState.afterFault_eq], htold⟩

end Sys2Proof.Machine
end

section
/-! SUPPORT. A commit that its reservation stands for (R158), the pins that others hold (R163), and what a frame that becomes FREE gives up
(R78, R92, R101, R132, R159). -/

namespace Sys2Proof.Machine

/-! ### Commits (R158) -/

/-- RVU's tests are passed: the operation goes to its owner, the reservation invalid. -/
theorem State.commit_of_reserves {s : State} {n : ClientId} {t : Target} (h : s.reserves n t) (tag : Nat) (run : State → State) :
    (s.beginCommand n tag).commit n (some t) run = run ((s.withoutReservation n).beginCommand n tag) := by
  have hreservation : (s.beginCommand n tag).reservation n = { target := some t, stamp := s.stampOf t, valid := true } := h
  have hstamp : (s.beginCommand n tag).stampOf t = s.stampOf t := by cases t <;> rfl
  unfold State.commit
  simp only [hreservation, hstamp, ne_eq, not_true_eq_false, if_false, Bool.true_eq_false]
  rfl

/-- The operation goes to its owner from the port. -/
theorem State.request_commit {s : State} {n : ClientId} {classes : List CommandClass} {t : Target} (ha : s.accepts n classes)
    (hr : s.reserves n t) (tag : Nat) (run : State → State) :
    s.request n tag classes (fun s => s.commit n (some t) run) = run ((s.withoutReservation n).beginCommand n tag) :=
  (State.request_of_accepts ha tag _).trans (State.commit_of_reserves hr tag run)

theorem exec_frameAnnotate {s : State} {n : ClientId} {f : FrameId} (ha : s.accepts n [.frameEdit]) (hr : s.reserves n (.frame f))
    (tag mark : Nat) (title : List Byte) : exec (.frameAnnotate n tag f.val mark title) s
      = .next (((s.withoutReservation n).beginCommand n tag).annotate n f mark title) := by
  show execFrameAnnotate n tag f.val mark title s = _
  simp only [execFrameAnnotate, indexOf_val]
  exact congrArg _ (State.request_commit ha hr tag _)

theorem exec_frameRelease {s : State} {n : ClientId} {f : FrameId} (ha : s.accepts n [.frameEdit]) (hr : s.reserves n (.frame f))
    (tag : Nat) : exec (.frameRelease n tag f.val) s = .next (((s.withoutReservation n).beginCommand n tag).release n f) := by
  show execFrameRelease n tag f.val s = _
  simp only [execFrameRelease, indexOf_val]
  exact congrArg _ (State.request_commit ha hr tag _)

/-! ### FRAME_ANNOTATE (R162) -/

theorem annotationAllowed_iff (mark : Nat) (title : List Byte) : annotationAllowed mark title = true ↔
    mark ≤ 255 ∧ title.length ≤ 32 ∧ ∀ b ∈ title, 32 ≤ b.toNat ∧ b.toNat ≤ 126 := by
  simp only [annotationAllowed, Bool.and_eq_true, decide_eq_true_eq, List.all_eq_true, and_assoc]

theorem State.annotate_of_allowed {s : State} {n : ClientId} {f : FrameId} {mark : Nat} {title : List Byte}
    (h : annotationAllowed mark title = true) : s.annotate n f mark title
      = (s.setFrame f { s.frame f with title := title, mark := mark, stamp := next16 (s.frame f).stamp }).answer n .ok
          (beBytes 2 (next16 (s.frame f).stamp)) := by
  have hstamp : ∀ x : Frame, (s.setFrame f x).stampOf (.frame f) = x.stamp := fun x => by
    rw [State.stampOf, State.frame_setFrame_self]
  unfold State.annotate State.committed
  rw [if_pos h, State.modifyFrame_eq, hstamp]
  rfl

/-! ### The pins of others (R163) -/

theorem memberCount_eq {n : Nat} (v : Vector Bool n) : memberCount v = ((List.finRange n).filter (fun i => v[i])).length := by
  have hlist : v.toList = (List.finRange n).map (fun i => v[i]) := by
    refine List.ext_getElem (by simp) fun k _ _ => ?_
    simp
  rw [memberCount, hlist, List.countP_map, List.countP_eq_length_filter]
  rfl

theorem getElem_setMember {n : Nat} (v : Vector Bool n) (i j : Fin n) (b : Bool) :
    (setMember v i b)[j] = if j = i then b else v[j] := by
  simp only [setMember, Fin.getElem_fin, Vector.getElem_set, Fin.ext_iff, eq_comm]

theorem ownerOf_eq_iff (c : CursorId) (n : ClientId) : ownerOf c = n ↔ c = cursorOf n 0 ∨ c = cursorOf n 1 := by
  simp only [ownerOf, cursorOf, Fin.ext_iff, Fin.val_zero, Fin.val_one]
  omega

theorem PinSet.othersThan_eq (p : PinSet) (n : ClientId) : p.othersThan n
    = (allClients.filter (fun m => decide (m ≠ n) && p.explicit[m])).length
      + (allCursors.filter (fun c => decide (ownerOf c ≠ n) && p.retain[c])).length := by
  have hexplicit : ∀ m : ClientId, (setMember p.explicit n false)[m] = (decide (m ≠ n) && p.explicit[m]) := fun m => by
    rw [getElem_setMember]
    by_cases h : m = n <;> simp [h]
  have hretain : ∀ c : CursorId, (setMember (setMember p.retain (cursorOf n 0) false) (cursorOf n 1) false)[c]
      = (decide (ownerOf c ≠ n) && p.retain[c]) := fun c => by
    simp only [getElem_setMember, ne_eq, ownerOf_eq_iff]
    by_cases h1 : c = cursorOf n 1
    · simp [h1]
    · by_cases h0 : c = cursorOf n 0 <;> simp [h0, h1]
  rw [PinSet.othersThan, memberCount_eq, memberCount_eq]
  simp only [hexplicit, hretain]
  rfl

/-! ### A search and read commands that go on leave the bound frames (log 12) -/

theorem Seam.cleared_withResult (m : Seam) (x : Search) (limit : Nat) : (m.withResult x limit).cleared = m.cleared := by
  unfold Seam.withResult
  split
  · rfl
  · split <;> rfl

theorem State.recordSeam_sectionsKept (s : State) (x : Search) : s.SectionsKept (s.recordSeam x) := by
  have hseam := s.sectionsKept_modifySeam x.group x.seam (fun m => m.withResult x s.storeConfig.seamAcceptLimit)
    fun m => m.cleared_withResult x _
  have hidle : ∀ u : State, u.SectionsKept { u with engine := none } := fun _ => .of_eq rfl rfl rfl
  exact (((hseam.trans (hidle _)).trans (State.recomputeHeight_sectionsKept _ _)).trans (State.testJoining_sectionsKept _ _ _)).trans
    (State.testJoined_sectionsKept _ _ _)

theorem State.runSearch_sectionsKept (fuel : Nat) (s : State) : s.SectionsKept (s.runSearch fuel) := by
  induction fuel generalizing s with
  | zero => exact .refl s
  | succ fuel ih =>
    unfold State.runSearch
    split
    · exact .refl s
    · split
      · exact s.recordSeam_sectionsKept _
      · exact .ite (.of_eq rfl rfl rfl) (State.SectionsKept.trans (t := s.keepRow _ none) (.of_eq rfl rfl rfl) (ih _))

theorem State.carrySearch_sectionsKept (s : State) : s.SectionsKept s.carrySearch := by
  unfold State.carrySearch
  split
  · exact .refl s
  · exact .ite (.refl s) (s.runSearch_sectionsKept _)

theorem State.groups_runJob (fuel : Nat) (s : State) (c : CursorId) : (s.runJob fuel c).groups = s.groups := by
  induction fuel generalizing s with
  | zero => rfl
  | succ fuel ih =>
    unfold State.runJob
    split
    · split
      · rfl
      · dsimp only
        split
        · rfl
        · split
          · exact ih _
          · split <;> rfl
    · rfl
    · rfl

theorem State.groups_resumeJobs (s : State) : s.resumeJobs.groups = s.groups := by
  have hone : ∀ (u : State) (c : CursorId), (u.resumeJob c).groups = u.groups := fun u c => by
    unfold State.resumeJob
    split
    · split
      · exact u.groups_runJob _ c
      · rfl
    · rfl
  have hall : ∀ (l : List CursorId) (u : State), (l.foldl (fun s c => s.resumeJob c) u).groups = u.groups := fun l => by
    induction l with
    | nil => exact fun _ => rfl
    | cons c l ih => exact fun u => (ih _).trans (hone u c)
  exact hall _ s

/-- What follows an event takes no section its frame, nor gives one, where no source waits to start. -/
theorem State.sectionFrame_closeEvent {s : State} (h : s.noStartWaits) (g : GroupId) (k : Nat) :
    s.closeEvent.sectionFrame g k = s.sectionFrame g k := by
  unfold State.closeEvent
  rw [State.takeHeldStarts_of_noStartWaits h, State.sectionFrame_congr (State.groups_resumeJobs _),
    s.carrySearch_sectionsKept.sectionFrame]

/-! ### What a frame that becomes FREE gives up (R78) -/

/-- From `s` to `t` frame `f` has given up its view with its pool rows, its cursors, its section, its error records' marks and the
reservations that name it. -/
structure State.GivesUp (s t : State) (f : FrameId) : Prop where
  views        : ∀ v, (s.frame f).view = some v → t.view v = none
  pool         : ∀ p, t.poolRow p = (s.poolRow p).filter (fun h => decide ((s.frame f).view ≠ some h.view))
  lost         : ∀ c k, (s.cursor c).slot = .opened k → k.attachment = .current f ∨ k.attachment = .previous f →
    (t.cursor c).slot = .lost k
  bound        : ∀ g k, (s.frame f).mosaic = some (g, k) → t.sectionFrame g k = none
  errors       : t.errors = s.errors.map (fun r => if r.frame = some f then { r with marking := false } else r)
  reservations : t.reservations = s.reservations.map (fun r => if r.target = some (.frame f) then { r with valid := false } else r)

/-- MU is told of a frame that is gone: its section has no frame (R101). -/
theorem State.sectionFrame_tellGone {s : State} {f : FrameId} {g : GroupId} {k : Nat} (h : (s.frame f).mosaic = some (g, k))
    (c : StaleCause) : (s.tellGone f c).sectionFrame g k = none := by
  unfold State.tellGone
  simp only [h, State.sectionFrame_leaveSection, and_self, if_true]

theorem State.freeFrame_givesUp (s : State) (f : FrameId) : s.GivesUp (s.freeFrame f) f := by
  obtain ⟨haonly, -⟩ := s.clearOps_spec f
  rw [State.freeFrame_eq]
  unfold State.deserted
  generalize (s.staleOps f).removeUnissued f = a at haonly ⊢
  have hclears := a.releaseView_loseCursors_clears f .free
  generalize (a.releaseView f .free).loseCursors (fun c => c.onFrame f) .free = b at hclears ⊢
  have hcframe := b.frame_unpinned f f
  have hconly : b.unpinned f = { b with
    frames := (b.unpinned f).frames
    errors := b.errors.map (fun r => if r.frame = some f then { r with marking := false } else r) } := rfl
  generalize b.unpinned f = c at hcframe hconly ⊢
  have hmoved := c.tellGone_remosaics f .free
  have hleft := fun g k (h : (c.frame f).mosaic = some (g, k)) => State.sectionFrame_tellGone h .free
  generalize c.tellGone f .free = d at hmoved hleft ⊢
  have hmarked := d.vanishReads_marksReads f
  generalize d.vanishReads f = e at hmarked ⊢
  have htonly : e.vacated f = { e with
    frames := (e.vacated f).frames
    reservations := e.reservations.map (fun r => if r.target = some (.frame f) then { r with valid := false } else r) } := rfl
  generalize e.vacated f = t at htonly ⊢
  have haframe : a.frame f = s.frame f := by simp only [State.frame, congrArg State.frames haonly]
  have hapool : ∀ p, a.poolRow p = s.poolRow p := fun p => by simp only [State.poolRow, congrArg State.pool haonly]
  have hmosaic : (c.frame f).mosaic = (s.frame f).mosaic := by
    obtain ⟨m, r, hbframe, -⟩ := hclears.frame
    rw [hcframe, if_pos rfl, hbframe, haframe]
  have htviews : t.views = b.views := by
    rw [congrArg State.views htonly, congrArg State.views hmarked.only, congrArg State.views hmoved.only, congrArg State.views hconly]
  have htpool : t.pool = b.pool := by
    rw [congrArg State.pool htonly, congrArg State.pool hmarked.only, congrArg State.pool hmoved.only, congrArg State.pool hconly]
  have htgroups : t.groups = d.groups := by
    rw [congrArg State.groups htonly, congrArg State.groups hmarked.only]
  have htcursor : ∀ q, t.cursor q = e.cursor q := fun q => by simp only [State.cursor, congrArg State.cursors htonly]
  have hcbcursor : ∀ q, c.cursor q = b.cursor q := fun q => by simp only [State.cursor, congrArg State.cursors hconly]
  have hacursor : ∀ q, a.cursor q = s.cursor q := fun q => by simp only [State.cursor, congrArg State.cursors haonly]
  refine ⟨fun v hv => ?_, fun p => ?_, fun q k hk ha => ?_, fun g k h => ?_, ?_, ?_⟩
  · rw [show t.view v = b.view v by simp only [State.view, htviews], hclears.views v (by rw [haframe]; exact hv)]
  · rw [show t.poolRow p = b.poolRow p by simp only [State.poolRow, htpool], hclears.pool, hapool, haframe]
  · rw [htcursor, hmarked.slots, hmoved.cursor, hcbcursor, hclears.lost q k (by rw [hacursor]; exact hk) ha]
  · rw [State.sectionFrame_congr htgroups]
    exact hleft g k (by rw [hmosaic]; exact h)
  · rw [congrArg State.errors htonly, congrArg State.errors hmarked.only, congrArg State.errors hmoved.only,
      congrArg State.errors hconly, congrArg State.errors hclears.only, congrArg State.errors haonly]
  · rw [congrArg State.reservations htonly, congrArg State.reservations hmarked.only, congrArg State.reservations hmoved.only,
      congrArg State.reservations hconly, congrArg State.reservations hclears.only, congrArg State.reservations haonly]

end Sys2Proof.Machine
end

section
/-! Settles O44: FRAME_RELEASE, by way of the frame's becoming FREE, the answer and what follows the event (R163; log 12). -/

namespace Sys2Proof.Machine

/-! ### FRAME_RELEASE (R163) -/

theorem FrameState.isRunning_iff (x : FrameState) : x.isRunning = true ↔ x = .receiving ∨ x = .settling := by
  cases x <;> simp [FrameState.isRunning]

theorem State.release_of_running {s : State} {n : ClientId} {f : FrameId} (h : (s.frame f).state.isRunning = true) :
    s.release n f = s.answer n .inUse [] := if_pos h

theorem State.release_of_pinned {s : State} {n : ClientId} {f : FrameId} (h : (s.frame f).state.isRunning = false)
    (hp : (s.frame f).pins.othersThan n ≠ 0) :
    s.release n f = s.answer n .pinned [byteOf ((s.frame f).pins.othersThan n)] := by
  unfold State.release
  rw [h, if_neg (by decide), if_pos (by omega)]

theorem State.release_of_free {s : State} {n : ClientId} {f : FrameId} (h : (s.frame f).state.isRunning = false)
    (hp : (s.frame f).pins.othersThan n = 0) :
    s.release n f = ((s.freeFrame f).answer n .ok (beBytes 2 (next16 (s.frame f).stamp))).closeEvent := by
  have hstamp : (s.freeFrame f).stampOf (.frame f) = next16 (s.frame f).stamp := by
    rw [State.stampOf, (s.freeFrame_frees f).self]
    rfl
  unfold State.release State.committed
  rw [h, if_neg (by decide), if_neg (by omega), hstamp]

/-- By way of `u`, in which frame `f` has become FREE, then the answer, then what follows the event. -/
structure State.Releases (s u t : State) (n : ClientId) (f : FrameId) : Prop where
  frees  : s.Frees u f
  gives  : s.GivesUp u f
  goesOn : (u.answer n .ok (beBytes 2 (next16 (s.frame f).stamp))).GoesOn t
  bound  : ∀ g k, t.sectionFrame g k = u.sectionFrame g k

theorem State.release_releases {s : State} {n : ClientId} {f : FrameId} (h : (s.frame f).state.isRunning = false)
    (hp : (s.frame f).pins.othersThan n = 0) (hrest : s.noStartWaits) : ∃ u, s.Releases u (s.release n f) n f := by
  have hfrees := s.freeFrame_frees f
  have hgives := s.freeFrame_givesUp f
  rw [State.release_of_free h hp]
  refine ⟨s.freeFrame f, ?_⟩
  generalize s.freeFrame f = u at hfrees hgives ⊢
  have hwaits : (u.answer n .ok (beBytes 2 (next16 (s.frame f).stamp))).noStartWaits := fun i => by
    show (u.source i).held ≠ none → (u.source i).state = .idle → (u.source i).binding.isSome = true
    rw [hfrees.sources i]
    exact hrest i
  exact ⟨hfrees, hgives, State.closeEvent_goesOn hwaits, fun g k => State.sectionFrame_closeEvent hwaits g k⟩

section Releases
variable {s u t : State} {n : ClientId} {f : FrameId} (h : s.Releases u t n f)
include h

theorem State.Releases.frame (g : FrameId) : t.frame g = u.frame g := h.goesOn.frame g

theorem State.Releases.cursor {c : CursorId} {k : CursorFields} (hk : (s.cursor c).slot = .opened k)
    (ha : k.attachment = .current f ∨ k.attachment = .previous f) : (t.cursor c).slot = .lost k := by
  have hlost : ((u.answer n .ok (beBytes 2 (next16 (s.frame f).stamp))).cursor c).slot = .lost k := h.gives.lost c k hk ha
  rw [h.goesOn.closed c (by rw [Cursor.openFields, hlost]), hlost]

/-- The port of the client, which has no read command in progress. -/
theorem State.Releases.port (hjobs : ∀ c, ownerOf c = n → (s.cursor c).job = none) : (t.port n).state = .done
    ∧ (t.port n).buffer = some { status := .ok, tag := (s.port n).tag, body := beBytes 2 (next16 (s.frame f).stamp) } := by
  rw [h.goesOn.ports n fun c hc => h.frees.jobs c (hjobs c hc), State.answer, State.port_setPort_self, h.frees.tags]
  exact ⟨rfl, rfl⟩

theorem State.Releases.errors : t.errors = s.errors.map (fun r => if r.frame = some f then { r with marking := false } else r) := by
  rw [congrArg State.errors h.goesOn.only]
  exact h.gives.errors

theorem State.Releases.reservation {m : ClientId} (hm : (s.reservation m).target = some (.frame f)) :
    (t.reservation m).valid = false := by
  have hkept : t.reservations = u.reservations := (congrArg State.reservations h.goesOn.only :)
  have hlast : t.reservation m = { s.reservation m with valid := false } := by
    simp only [State.reservation, hkept, h.gives.reservations, Vector.getElem_map]
    exact if_pos hm
  rw [hlast]

theorem State.Releases.view {v : ViewId} (hv : (s.frame f).view = some v) :
    t.view v = none ∧ ∀ p k, s.poolRow p = some k → k.view = v → t.poolRow p = none := by
  have hviews : t.views = u.views := (congrArg State.views h.goesOn.only :)
  have hpool : t.pool = u.pool := (congrArg State.pool h.goesOn.only :)
  refine ⟨?_, fun p k hp hk => ?_⟩
  · rw [show t.view v = u.view v by simp only [State.view, hviews], h.gives.views v hv]
  · rw [show t.poolRow p = u.poolRow p by simp only [State.poolRow, hpool], h.gives.pool, hp, hv, ← hk]
    simp

end Releases

/-- Settles O44: a commit whose reservation stands reaches FLU, which takes or refuses it; a release is the frame's becoming FREE and what
follows that event. -/
theorem frameCommitsAnnotateAndRelease : Obligations.FrameCommitsAnnotateAndRelease := by
  unfold Obligations.FrameCommitsAnnotateAndRelease
  intro n tag f s ha hr x others
  have hothers : x.pins.othersThan n = others := PinSet.othersThan_eq x.pins n
  have hidle : x.state ≠ .receiving → x.state ≠ .settling → x.state.isRunning = false := fun h1 h2 =>
    Bool.eq_false_iff.mpr fun h => ((FrameState.isRunning_iff _).mp h).elim h1 h2
  refine ⟨fun mark title => ⟨fun h => ?_, fun h => ?_⟩, fun h => ?_, fun h1 h2 hp => ?_, fun h1 h2 hp hrest hjobs => ?_⟩
  · rw [exec_frameAnnotate ha hr, State.annotate_of_allowed ((annotationAllowed_iff mark title).mpr h)]
    rfl
  · rw [exec_frameAnnotate ha hr, State.annotate, if_neg ((annotationAllowed_iff mark title).not.mpr h)]
    rfl
  · have hrunning := State.release_of_running (s := (s.withoutReservation n).beginCommand n tag) (n := n) (f := f)
      ((FrameState.isRunning_iff _).mpr h)
    rw [exec_frameRelease ha hr, hrunning]
    rfl
  · have hpinned := State.release_of_pinned (s := (s.withoutReservation n).beginCommand n tag) (n := n) (f := f) (hidle h1 h2)
      (ne_of_eq_of_ne hothers hp)
    rw [exec_frameRelease ha hr, hpinned, ← hothers]
    rfl
  · have hwaits : ((s.withoutReservation n).beginCommand n tag).noStartWaits := fun i hheld =>
      hrest.1 i (Option.isSome_iff_ne_none.mpr hheld)
    obtain ⟨u, h⟩ := State.release_releases (s := (s.withoutReservation n).beginCommand n tag) (n := n) (f := f) (hidle h1 h2)
      (hothers.trans hp) hwaits
    have hnojob : ∀ c, ownerOf c = n → (s.cursor c).job = none := fun c hc => by
      refine Option.not_isSome_iff_eq_none.mp fun hjob => ?_
      have hexecuting := (hjobs c hjob).1
      rw [hc] at hexecuting
      rcases ha.1 with h | h <;> exact absurd (hexecuting.symm.trans h) (by decide)
    have hport := h.port hnojob
    have htag : (((s.withoutReservation n).beginCommand n tag).port n).tag = tag := by
      rw [State.beginCommand, State.port_setPort_self]
    rw [htag] at hport
    refine ⟨_, exec_frameRelease ha hr tag, ?_, fun g hg => ?_, fun v hv => h.view hv, fun c k hk hk' => h.cursor hk hk',
      fun g k hg => ?_, fun m hm => ?_, h.errors, hport.1, hport.2⟩
    · rw [h.frame, h.frees.self]
      rfl
    · rw [h.frame, h.frees.others g hg]
      rfl
    · rw [h.bound, h.gives.bound g k hg]
    · refine h.reservation ?_
      by_cases hmn : m = n
      · subst hmn
        show ((s.withoutReservation m).reservation m).target = _
        rw [State.withoutReservation, State.reservation_setReservation_self]
        exact hm
      · show ((s.withoutReservation n).reservation m).target = _
        rw [State.withoutReservation, State.reservation_setReservation, if_neg hmn]
        exact hm

end Sys2Proof.Machine
end

section
/-! SUPPORT. The row that a composite row names (R104, R105), what attachments show of a row (R90), the conditions of SCAN and its
course (R152), and the answers of READ_MAP and SCAN. -/

namespace Sys2Proof.Machine

/-! ### The sections of a composite with their tops (R104) -/

theorem State.getElem?_topsFrom (s : State) (l : List MosaicSection) (below : Int) (k : Nat) :
    (s.topsFrom below l)[k]? = l[k]?.map (fun _ => below + s.topOf l k) := by
  induction l generalizing below k with
  | nil => rfl
  | cons x l ih =>
    have htop : x.topBelow below = below + x.offset := by
      cases h : x.seam <;> simp [MosaicSection.topBelow, MosaicSection.offset, h]
      omega
    cases k with
    | zero => simp [State.topsFrom, State.topOf, htop]
    | succ k =>
      rw [State.topsFrom, List.getElem?_cons_succ, ih, List.getElem?_cons_succ]
      congr 1
      funext _
      rw [htop, s.sectionRows_eq]
      simp only [State.topOf, List.take_succ_cons, List.map_cons, List.sum_cons]
      omega

/-- A group's sections, each with its index and its top. -/
def State.laidOut (s : State) (g : GroupId) : List (Nat × MosaicSection × Int) :=
  (List.range (s.group g).sections.length).zip ((s.group g).sections.zip (s.tops g))

theorem State.mem_laidOut (s : State) (g : GroupId) (k : Nat) (x : MosaicSection) (top : Int) :
    (k, x, top) ∈ s.laidOut g ↔ (s.group g).sections[k]? = some x ∧ top = s.topOf (s.group g).sections k := by
  have htops : ∀ j, (s.tops g)[j]? = (s.group g).sections[j]?.map (fun _ => s.topOf (s.group g).sections j) := fun j => by
    rw [State.tops, s.getElem?_topsFrom, Int.zero_add]
  simp only [State.laidOut, List.mem_iff_getElem?, List.getElem?_zip_eq_some, htops]
  constructor
  · rintro ⟨j, hj, hx, htop⟩
    obtain ⟨-, rfl⟩ := List.getElem?_eq_some_iff.mp hj
    rw [List.getElem_range]
    rw [hx] at htop
    exact ⟨hx, (Option.some.inj htop).symm⟩
  · rintro ⟨hx, rfl⟩
    have hk : k < (s.group g).sections.length := (List.getElem?_eq_some_iff.mp hx).1
    exact ⟨k, List.getElem?_range hk, hx, by rw [hx]; rfl⟩

theorem State.pairwise_laidOut (s : State) (g : GroupId) : (s.laidOut g).Pairwise (fun a b => a.1 < b.1) := by
  rw [List.pairwise_iff_getElem]
  intro i j hi hj hij
  simpa [State.laidOut] using hij

/-! ### The row that a composite row names (R105) -/

/-- A section laid out at its top covers composite row `c`. -/
abbrev State.coversAt (s : State) (c : Nat) (e : Nat × MosaicSection × Int) : Prop :=
  e.2.2 ≤ c ∧ ((c : Int) - e.2.2).toNat < s.sectionRows e.2.1

/-- The order of its row there. -/
def State.rankAt (s : State) (c : Nat) (e : Nat × MosaicSection × Int) : Nat :=
  s.sectionRank e.2.1 ((c : Int) - e.2.2).toNat

theorem State.nameRow_of_not_covered {s : State} {c : Nat} :
    ∀ l : List (Nat × MosaicSection × Int), (∀ e ∈ l, ¬ s.coversAt c e) → s.nameRow c l = none
  | [], _ => rfl
  | (k, x, top) :: l, h => by
    have hhead : ¬ (top ≤ c ∧ ((c : Int) - top).toNat < s.sectionRows x) := h _ List.mem_cons_self
    rw [State.nameRow, if_neg hhead, State.nameRow_of_not_covered l fun e he => h e (List.mem_cons_of_mem _ he)]

/-- The section named covers the row, and no other that covers it is better, nor as good and above it. -/
theorem State.nameRow_of_covered {s : State} {c : Nat} : ∀ l : List (Nat × MosaicSection × Int), l.Pairwise (fun a b => a.1 < b.1) →
    (∃ e ∈ l, s.coversAt c e) → ∃ e ∈ l, s.coversAt c e ∧ s.nameRow c l = some (e.1, e.2.1, ((c : Int) - e.2.2).toNat)
      ∧ ∀ d ∈ l, s.coversAt c d → s.rankAt c d < s.rankAt c e ∨ s.rankAt c d = s.rankAt c e ∧ e.1 ≤ d.1
  | [], _, h => by simp at h
  | a :: l, hl, h => by
    obtain ⟨habove, hl⟩ := List.pairwise_cons.mp hl
    have hstep : s.nameRow c (a :: l) = if s.coversAt c a then
        match s.nameRow c l with
        | none => some (a.1, a.2.1, ((c : Int) - a.2.2).toNat)
        | some (k', x', row') =>
          if s.rankAt c a < s.sectionRank x' row' then some (k', x', row') else some (a.1, a.2.1, ((c : Int) - a.2.2).toNat)
      else s.nameRow c l := rfl
    by_cases hrest : ∃ e ∈ l, s.coversAt c e
    · obtain ⟨e, he, hcovers, hnamed, hbest⟩ := State.nameRow_of_covered l hl hrest
      by_cases ha : s.coversAt c a
      · rw [hstep, if_pos ha, hnamed]
        dsimp only
        by_cases hrank : s.rankAt c a < s.rankAt c e
        · refine ⟨e, List.mem_cons_of_mem _ he, hcovers, if_pos hrank, fun d hd hdc => ?_⟩
          rcases List.mem_cons.mp hd with rfl | hd
          · exact .inl hrank
          · exact hbest d hd hdc
        · refine ⟨a, List.mem_cons_self, ha, if_neg hrank, fun d hd hdc => ?_⟩
          rcases List.mem_cons.mp hd with rfl | hd
          · exact .inr ⟨rfl, le_rfl⟩
          · have hbelow := habove d hd
            have hde := hbest d hd hdc
            omega
      · rw [hstep, if_neg ha]
        refine ⟨e, List.mem_cons_of_mem _ he, hcovers, hnamed, fun d hd hdc => ?_⟩
        rcases List.mem_cons.mp hd with rfl | hd
        · exact absurd hdc ha
        · exact hbest d hd hdc
    · have hnone : ∀ e ∈ l, ¬ s.coversAt c e := fun e he hec => hrest ⟨e, he, hec⟩
      have ha : s.coversAt c a := by
        obtain ⟨e, he, hec⟩ := h
        rcases List.mem_cons.mp he with rfl | he
        · exact hec
        · exact absurd hec (hnone e he)
      rw [hstep, if_pos ha, State.nameRow_of_not_covered l hnone]
      refine ⟨a, List.mem_cons_self, ha, rfl, fun d hd hdc => ?_⟩
      rcases List.mem_cons.mp hd with rfl | hd
      · exact .inr ⟨rfl, le_rfl⟩
      · exact absurd hdc (hnone d hd)

/-! ### Composite rows as `Safety.lean` speaks of them -/

theorem State.coversAt_iff (s : State) (g : GroupId) (k c : Nat) {x : MosaicSection} (hx : (s.group g).sections[k]? = some x) :
    s.coversAt c (k, x, s.topOf (s.group g).sections k) ↔ s.covers g k c := by
  simp only [State.coversAt, State.covers, hx, s.sectionRows_eq, Option.some.injEq, exists_eq_left']
  omega

theorem gradeOf_some (e : RowEntry) : gradeOf (some e) = e.state.rank := by
  obtain ⟨state, _, _, _⟩ := e
  cases state <;> rfl

theorem State.rankAt_eq (s : State) (g : GroupId) (k c : Nat) {x : MosaicSection} (hx : (s.group g).sections[k]? = some x) :
    s.rankAt c (k, x, s.topOf (s.group g).sections k) = gradeOf (s.sectionEntry g k c) := by
  have hframe : s.sectionFrame g k = x.frame := by rw [State.sectionFrame, hx]; rfl
  have hentry : s.sectionEntry g k c = x.frame.bind (fun f => s.rowEntry f ((c : Int) - s.topOf (s.group g).sections k).toNat) := by
    rw [State.sectionEntry, hframe]
    rfl
  rw [hentry, State.rankAt, State.sectionRank]
  cases x.frame.bind (fun f => s.rowEntry f ((c : Int) - s.topOf (s.group g).sections k).toNat) with
  | none => rfl
  | some e => exact (gradeOf_some e).symm

theorem State.translate_of_not_covered {s : State} {g : GroupId} {c : Nat} (h : ∀ k, ¬ s.covers g k c) : s.translate g c = none := by
  have hnone : s.nameRow c (s.laidOut g) = none := by
    refine State.nameRow_of_not_covered _ fun ⟨k, x, top⟩ he hcovers => ?_
    obtain ⟨hx, rfl⟩ := (s.mem_laidOut g k x top).mp he
    exact h k ((s.coversAt_iff g k c hx).mp hcovers)
  unfold State.translate
  dsimp only
  rw [show s.nameRow c ((List.range (s.group g).sections.length).zip ((s.group g).sections.zip (s.tops g))) = none from hnone]

/-- The best section of those that cover a row, the upper of two equal ones, is the one named. -/
theorem State.translate_of_best {s : State} {g : GroupId} {k c : Nat} (hk : s.covers g k c)
    (hbest : ∀ j, s.covers g j c → j ≠ k → gradeOf (s.sectionEntry g j c) < gradeOf (s.sectionEntry g k c)
      ∨ gradeOf (s.sectionEntry g j c) = gradeOf (s.sectionEntry g k c) ∧ k < j) :
    s.translate g c = (s.sectionFrame g k).map (fun f => { index := k, frame := f, row := s.sectionRow g k c }) := by
  obtain ⟨x, hx, htop, hend⟩ := id hk
  have hmem := (s.mem_laidOut g k x _).mpr ⟨hx, rfl⟩
  have hcovers := (s.coversAt_iff g k c hx).mpr hk
  obtain ⟨⟨j, y, top⟩, hj, hjc, hnamed, hfirst⟩ := State.nameRow_of_covered _ (s.pairwise_laidOut g) ⟨_, hmem, hcovers⟩
  obtain ⟨hy, rfl⟩ := (s.mem_laidOut g j y top).mp hj
  have hjk : j = k := by
    by_contra hne
    have h1 := hbest j ((s.coversAt_iff g j c hy).mp hjc) hne
    have h2 := hfirst _ hmem hcovers
    rw [s.rankAt_eq g k c hx, s.rankAt_eq g j c hy] at h2
    omega
  subst hjk
  obtain rfl : x = y := Option.some.inj (hx.symm.trans hy)
  have hframe : s.sectionFrame g j = x.frame := by rw [State.sectionFrame, hx]; rfl
  unfold State.translate
  dsimp only
  rw [show s.nameRow c ((List.range (s.group g).sections.length).zip ((s.group g).sections.zip (s.tops g))) = _ from hnamed, hframe]
  rfl

/-! ### What an attachment shows of a row (R90, R105) -/

theorem State.rowView_group_of_none {s : State} {g : GroupId} {c : Nat} (h : s.translate g c = none) :
    s.rowView (.group g) c = { showing := .blank, place := none, naming := none } := by
  simp only [State.rowView, h]

theorem State.rowView_group_of_some {s : State} {g : GroupId} {c : Nat} {m : Naming} (h : s.translate g c = some m) {e : RowEntry}
    (he : s.rowEntry m.frame m.row = some e) :
    s.rowView (.group g) c = { showing := .standing e, place := some (m.frame, m.row), naming := some m } := by
  simp only [State.rowView, h, State.currentShows, he]

theorem State.rowView_current {s : State} {f : FrameId} {row : Nat} {e : RowEntry} (h : s.rowEntry f row = some e) :
    s.rowView (.current f) row = { showing := .standing e, place := some (f, row), naming := none } := by
  simp only [State.rowView, State.currentShows, h]

/-- What a row shows depends on the frames, the views and the groups alone. -/
theorem State.rowView_congr {s t : State} (hframes : t.frames = s.frames) (hviews : t.views = s.views) (hgroups : t.groups = s.groups)
    (a : Attachment) (row : Nat) : t.rowView a row = s.rowView a row := by
  have hframe : t.frame = s.frame := funext fun f => by simp only [State.frame, hframes]
  have hview : t.view = s.view := funext fun v => by simp only [State.view, hviews]
  have hgroup : t.group = s.group := funext fun g => by simp only [State.group, hgroups]
  have hentry : t.rowEntry = s.rowEntry := funext fun f => funext fun r => by simp only [State.rowEntry, hframe]
  have hrows : t.sectionRows = s.sectionRows := funext fun x => by simp only [State.sectionRows, hframe]
  have hrank : t.sectionRank = s.sectionRank := funext fun x => funext fun r => by
    unfold State.sectionRank
    rw [hentry]
  have hlater : t.laterPass = s.laterPass := funext fun f => funext fun e => by
    unfold State.laterPass
    rw [hframe, hview]
  have htops : ∀ (l : List MosaicSection) (below : Int), t.topsFrom below l = s.topsFrom below l := fun l => by
    induction l with
    | nil => exact fun _ => rfl
    | cons x l ih => exact fun below => by simp only [State.topsFrom, ih, hrows]
  have hname : ∀ (c : Nat) (l : List (Nat × MosaicSection × Int)), t.nameRow c l = s.nameRow c l := fun c l => by
    induction l with
    | nil => rfl
    | cons e l ih =>
      obtain ⟨k, x, top⟩ := e
      simp only [State.nameRow, ih, hrows, hrank]
  cases a with
  | current f => simp only [State.rowView, State.currentShows, hentry]
  | previous f => simp only [State.rowView, State.viewShows, hlater, hentry]
  | group g => simp only [State.rowView, State.translate, State.tops, State.currentShows, htops, hname, hgroup, hentry]

theorem RowState.passOf_eq_some_iff (x : RowState) (p : Nat) : x.passOf = some p ↔ x.carriesPass p := by
  cases x <;> simp [RowState.passOf, RowState.carriesPass]

theorem State.laterPass_iff {s : State} {f : FrameId} {v : ViewId} {y : View} (hv : (s.frame f).view = some v) (hy : s.view v = some y)
    (e : RowEntry) : s.laterPass f e = true ↔ ∃ p, e.state.carriesPass p ∧ y.generation < p := by
  simp only [State.laterPass, hv, Option.bind_some, hy, ← RowState.passOf_eq_some_iff]
  cases e.state.passOf <;> simp

theorem State.viewShows_of_entry {s : State} {f : FrameId} {row : Nat} {e : RowEntry} (h : s.rowEntry f row = some e) :
    (∀ p, e.preserved = some p → s.viewShows f row = .preserved p)
      ∧ (e.preserved = none → e.lost = true → s.viewShows f row = .lost)
      ∧ (e.preserved = none → e.lost = false → s.laterPass f e = true → s.viewShows f row = .blank)
      ∧ (e.preserved = none → e.lost = false → s.laterPass f e = false → s.viewShows f row = .standing e) := by
  unfold State.viewShows
  rw [h]
  refine ⟨fun p hp => ?_, fun hp hl => ?_, fun hp hl hlater => ?_, fun hp hl hlater => ?_⟩
  · simp only [hp]
  · simp only [hp, hl, if_true]
  · simp only [hp, hl, hlater, if_true, Bool.false_eq_true, if_false]
  · simp only [hp, hl, hlater, Bool.false_eq_true, if_false]

end Sys2Proof.Machine
end

section
/-! Settles O51: the reports of rows (R50, R182), the conditions of SCAN and its course (R152), and the answers of READ_MAP and SCAN
(R151, R152). -/

namespace Sys2Proof.Machine

/-! ### Reports of rows (R50, R182) -/

theorem RowEntry.report_flight (e : RowEntry) : e.report = (match e.state with
      | .empty => [0#8, 255#8, 255#8, 255#8, 128#8, 255#8]
      | .missed => [1#8, 255#8, 255#8, 255#8, 128#8, 255#8]
      | .provisional l => 2#8 :: lineInfoBytes l
      | .firm l => 3#8 :: lineInfoBytes l
      | .damaged pass => [4#8, 255#8, byteOf pass, 255#8, 128#8, 255#8])
    ++ [if e.inFlight = .no then 0#8 else 1#8,
      match e.inFlight with | .write (some l) => byteOf l.quality | _ => 255#8,
      if e.preserved = none then 0#8 else 1#8, if e.lost then 1#8 else 0#8] := by
  obtain ⟨state, flight, preserved, lost⟩ := e
  have hflight : [flagByte (flight != .no)] ++ optBytes 1 flight.pendingQuality =
      [if flight = .no then 0#8 else 1#8, match flight with | .write (some l) => byteOf l.quality | _ => 255#8] := by
    rcases flight with _ | _ | _
    · rfl
    · next l => cases l with
      | none => rfl
      | some l => simp only [InFlight.pendingQuality, optBytes, beBytes_one]; rfl
    · rfl
  have hkept : [flagByte preserved.isSome, flagByte lost] =
      [if preserved = none then 0#8 else 1#8, if lost then 1#8 else 0#8] := by
    cases preserved <;> rfl
  unfold RowEntry.report
  rw [List.append_assoc _ [flagByte _], hflight, hkept]
  cases state <;> simp only [noLineBytes, optBytes, beBytes_one] <;> rfl

/-! ### The conditions of SCAN (R152) -/

theorem RowState.lineOf_any_iff (x : RowState) (p : LineInfo → Bool) :
    x.lineOf.any p = true ↔ ∃ l, (x = .provisional l ∨ x = .firm l) ∧ p l = true := by
  cases x <;> simp [RowState.lineOf]

section Holds
variable {c : ScanCondition} {q : RowState → Prop} (h : ∀ x, c.holdsOf x = true ↔ q x) (v : Showing)
include h

/-- A condition that holds of entries alone. -/
theorem ScanCondition.holds_iff (hblank : ¬ q .empty) (hp : c ≠ .provisional) (hf : c ≠ .filled) :
    c.holds v = true ↔ ∃ e, v = .standing e ∧ q e.state := by
  cases v with
  | standing e => simp [ScanCondition.holds, h]
  | preserved p => simp [ScanCondition.holds, hp, hf]
  | lost => simp [ScanCondition.holds]
  | blank => simp [ScanCondition.holds, h, hblank]

/-- A condition that holds of an EMPTY entry holds of a row shown EMPTY. -/
theorem ScanCondition.holds_iff_or_blank (hblank : q .empty) (hp : c ≠ .provisional) (hf : c ≠ .filled) :
    c.holds v = true ↔ (∃ e, v = .standing e ∧ q e.state) ∨ v = .blank := by
  cases v with
  | standing e => simp [ScanCondition.holds, h]
  | preserved p => simp [ScanCondition.holds, hp, hf]
  | lost => simp [ScanCondition.holds]
  | blank => simp [ScanCondition.holds, h, hblank]

/-- A preserved row is PROVISIONAL and FILLED. -/
theorem ScanCondition.holds_iff_or_preserved (hblank : ¬ q .empty) (hc : c = .provisional ∨ c = .filled) :
    c.holds v = true ↔ (∃ e, v = .standing e ∧ q e.state) ∨ ∃ p, v = .preserved p := by
  cases v with
  | standing e => simp [ScanCondition.holds, h]
  | preserved p => simp [ScanCondition.holds, hc]
  | lost => simp [ScanCondition.holds]
  | blank => simp [ScanCondition.holds, h, hblank]

end Holds

theorem ScanCondition.holdsOf_filled_iff (x : RowState) : ScanCondition.filled.holdsOf x = true ↔
    (∃ l, x = .provisional l) ∨ ∃ l, x = .firm l := by
  cases x <;> simp [ScanCondition.holdsOf, RowState.isFilled]

theorem ScanCondition.holdsOf_notFilled_iff (x : RowState) : ScanCondition.notFilled.holdsOf x = true ↔
    x = .empty ∨ x = .missed ∨ ∃ p, x = .damaged p := by
  cases x <;> simp [ScanCondition.holdsOf, RowState.isFilled]

theorem ScanCondition.holdsOf_empty_iff (x : RowState) : ScanCondition.empty.holdsOf x = true ↔ x = .empty := by
  cases x <;> simp [ScanCondition.holdsOf, RowState.code]

theorem ScanCondition.holdsOf_missed_iff (x : RowState) : ScanCondition.missed.holdsOf x = true ↔ x = .missed := by
  cases x <;> simp [ScanCondition.holdsOf, RowState.code]

theorem ScanCondition.holdsOf_provisional_iff (x : RowState) :
    ScanCondition.provisional.holdsOf x = true ↔ ∃ l, x = .provisional l := by
  cases x <;> simp [ScanCondition.holdsOf, RowState.code]

theorem ScanCondition.holdsOf_firm_iff (x : RowState) : ScanCondition.firm.holdsOf x = true ↔ ∃ l, x = .firm l := by
  cases x <;> simp [ScanCondition.holdsOf, RowState.code]

theorem ScanCondition.holdsOf_damaged_iff (x : RowState) : ScanCondition.damaged.holdsOf x = true ↔ ∃ p, x = .damaged p := by
  cases x <;> simp [ScanCondition.holdsOf, RowState.code]

theorem ScanCondition.holdsOf_passIs_iff (n : Nat) (x : RowState) : (ScanCondition.passIs n).holdsOf x = true ↔ x.carriesPass n := by
  rw [← RowState.passOf_eq_some_iff, ScanCondition.holdsOf, beq_iff_eq]

/-- The conditions on the line of an entry. -/
theorem ScanCondition.holds_iff_line {c : ScanCondition} {p : LineInfo → Bool} {q : LineInfo → Prop}
    (h : ∀ x, c.holdsOf x = x.lineOf.any p) (hq : ∀ l, p l = true ↔ q l) (v : Showing) (hp : c ≠ .provisional)
    (hf : c ≠ .filled) :
    c.holds v = true ↔ ∃ e, v = .standing e ∧ ∃ l, (e.state = .provisional l ∨ e.state = .firm l) ∧ q l := by
  refine ScanCondition.holds_iff (q := fun x => ∃ l, (x = .provisional l ∨ x = .firm l) ∧ q l) (fun x => ?_) v (by simp) hp hf
  rw [h, RowState.lineOf_any_iff]
  simp only [hq]

theorem indexOf_isSome_iff (n k : Nat) : (indexOf n k).isSome = true ↔ k < n := by
  unfold indexOf
  split <;> simp [*]

theorem indexOf_eq_some_iff {n k : Nat} {i : Fin n} : indexOf n k = some i ↔ i.val = k := by
  unfold indexOf
  split <;> simp [Fin.ext_iff, eq_comm]
  omega

theorem scanConditionOf_isSome_iff (code parameter : Nat) : (scanConditionOf code parameter).isSome = true ↔
    code ≤ 11 ∧ ((code = 7 ∨ code = 8) → parameter ≤ 255) ∧ (code = 9 → parameter ≤ 2)
      ∧ (code = 11 → 1 ≤ parameter ∧ parameter ≤ 15) := by
  by_cases hc : code ≤ 11
  · interval_cases code <;> simp [scanConditionOf, indexOf_isSome_iff, apply_ite Option.isSome]; omega
  · obtain ⟨m, rfl⟩ := Nat.exists_eq_add_of_le' (show 12 ≤ code by omega)
    have hnone : scanConditionOf (m + 12) parameter = none := rfl
    simp [hnone, hc]

/-! ### The course of a SCAN (R152) -/

/-- The row that SCAN tests `j`-th. -/
def CursorFields.tested (x : CursorFields) (p j : Nat) : Nat := (fun p => moveInWindow x.base x.length p x.step)^[j] p

theorem CursorFields.tested_succ (x : CursorFields) (p j : Nat) :
    x.tested p (j + 1) = x.tested (moveInWindow x.base x.length p x.step) j := rfl

/-- SCAN stops at the first row that satisfies the condition. -/
theorem State.scanFrom_of_hit {s : State} {x : CursorFields} {c : ScanCondition} (limit : Nat) {j p : Nat} (hj : j < limit)
    (hit : c.holds (s.rowView x.attachment (x.tested p j)).showing = true)
    (hbefore : ∀ m < j, c.holds (s.rowView x.attachment (x.tested p m)).showing = false) :
    s.scanFrom x c limit p = (x.tested p j, true, decide (j + 1 = limit)) := by
  induction limit generalizing j p with
  | zero => omega
  | succ limit ih =>
    cases j with
    | zero =>
      have hhere : c.holds (s.rowView x.attachment p).showing = true := hit
      have hspent : (limit == 0) = decide (0 + 1 = limit + 1) := by cases limit <;> simp
      rw [State.scanFrom, if_pos hhere, hspent]
      rfl
    | succ j =>
      have hhere : c.holds (s.rowView x.attachment p).showing = false := hbefore 0 (by omega)
      rw [State.scanFrom, hhere, if_neg (by decide), if_neg (by omega),
        ih (j := j) (by omega) hit fun m hm => hbefore (m + 1) (by omega), CursorFields.tested_succ]
      simp

/-- SCAN stops at its limit where no row satisfies the condition. -/
theorem State.scanFrom_of_miss {s : State} {x : CursorFields} {c : ScanCondition} (limit : Nat) {p : Nat} (hlimit : 1 ≤ limit)
    (hmiss : ∀ j < limit, c.holds (s.rowView x.attachment (x.tested p j)).showing = false) :
    s.scanFrom x c limit p = (x.tested p (limit - 1), false, true) := by
  induction limit generalizing p with
  | zero => omega
  | succ limit ih =>
    have hhere : c.holds (s.rowView x.attachment p).showing = false := hmiss 0 (by omega)
    rw [State.scanFrom, hhere, if_neg (by decide)]
    cases limit with
    | zero => rfl
    | succ limit =>
      rw [if_neg (by omega), ih (by omega) fun j hj => hmiss (j + 1) (by omega)]
      rfl

/-! ### The commands (R151, R152) -/

section Commands
variable {s : State} {n : ClientId} (h : s.accepts n [.read]) (tag : Nat)
include h

theorem exec_readMap_of_badRequest {kind : AttachKind} {number first count : Nat}
    (hbad : attachmentOf kind number = none ∨ count = 0 ∨ 64 < count) :
    exec (.readMap n tag kind number first count) s = .next (s.withAnswer n tag .badRequest []) := by
  refine congrArg Host.Outcome.next ((State.request_of_accepts h tag _).trans ?_)
  cases hw : attachmentOf kind number with
  | none => rfl
  | some w =>
    have hcount : ¬ (1 ≤ count ∧ count ≤ 64) := by
      rw [hw] at hbad
      simp only [reduceCtorEq, false_or] at hbad
      omega
    exact if_neg hcount

/-- The answer of a READ_MAP whose ranges are good. -/
theorem exec_readMap_of_named {kind : AttachKind} {number first count : Nat} {w : Attachment} (hw : attachmentOf kind number = some w)
    (hcount : 1 ≤ count ∧ count ≤ 64) :
    (∀ st, s.mapRefusal w = some st → exec (.readMap n tag kind number first count) s = .next (s.withAnswer n tag st []))
      ∧ (s.mapRefusal w = none → exec (.readMap n tag kind number first count) s = .next
          (if first < s.attachmentRows w then s.withAnswer n tag .ok (s.mapBody w first count)
            else s.withAnswer n tag .badRequest [])) := by
  have hrefusal : (s.beginCommand n tag).mapRefusal w = s.mapRefusal w := by cases w <;> rfl
  have hrows : (s.beginCommand n tag).attachmentRows w = s.attachmentRows w := by cases w <;> rfl
  have hview : ∀ row, (s.beginCommand n tag).rowView w row = s.rowView w row :=
    State.rowView_congr (s := s) (t := s.beginCommand n tag) rfl rfl rfl w
  have hbody : (s.beginCommand n tag).mapBody w first count = s.mapBody w first count := by
    simp only [State.mapBody, hrows, hview]
  refine ⟨fun st hst => ?_, fun hnone => ?_⟩
  · refine congrArg Host.Outcome.next ((State.request_of_accepts h tag _).trans ?_)
    simp only [hw, if_pos hcount, hrefusal, hst]
    rfl
  · refine congrArg Host.Outcome.next ((State.request_of_accepts h tag _).trans ?_)
    simp only [hw, if_pos hcount, hrefusal, hnone, hrows, hbody]
    rfl

theorem exec_scan_of_badRequest {i : Fin 2} {condition parameter limit : Nat}
    (hbad : scanConditionOf condition parameter = none ∨ limit = 0 ∨ 2048 < limit) :
    exec (.scan n tag i condition parameter limit) s = .next (s.withAnswer n tag .badRequest []) := by
  refine congrArg Host.Outcome.next ((State.request_of_accepts h tag _).trans ?_)
  cases hc : scanConditionOf condition parameter with
  | none => rfl
  | some cond =>
    have hlimit : ¬ (1 ≤ limit ∧ limit ≤ 2048) := by
      rw [hc] at hbad
      simp only [reduceCtorEq, false_or] at hbad
      omega
    exact if_neg hlimit

/-- The answer of a SCAN whose ranges are good. -/
theorem exec_scan_of_ranges {i : Fin 2} {condition parameter limit : Nat} {cond : ScanCondition}
    (hc : scanConditionOf condition parameter = some cond) (hlimit : 1 ≤ limit ∧ limit ≤ 2048) :
    ((s.cursor (cursorOf n i)).slot = .closed →
        exec (.scan n tag i condition parameter limit) s = .next (s.withAnswer n tag .noSuch []))
      ∧ (∀ k, (s.cursor (cursorOf n i)).slot = .lost k →
        exec (.scan n tag i condition parameter limit) s = .next (s.withAnswer n tag .lost []))
      ∧ ∀ k row hit spent, (s.cursor (cursorOf n i)).slot = .opened k → s.scanFrom k cond limit k.position = (row, hit, spent) →
        exec (.scan n tag i condition parameter limit) s = .next
          ((s.setCursor (cursorOf n i) { s.cursor (cursorOf n i) with slot := .opened { k with position := row } }).withAnswer n tag .ok
            (beBytes 2 row ++ (s.rowView k.attachment row).bytes ++ [byteOf (setNat [hit, spent])])) := by
  have hcursor : ∀ c, (s.beginCommand n tag).cursor c = s.cursor c := fun _ => rfl
  have hview : ∀ w row, (s.beginCommand n tag).rowView w row = s.rowView w row :=
    State.rowView_congr (s := s) (t := s.beginCommand n tag) rfl rfl rfl
  have hscan : ∀ k l p, (s.beginCommand n tag).scanFrom k cond l p = s.scanFrom k cond l p := fun k l => by
    induction l with
    | zero => exact fun _ => rfl
    | succ l ih => exact fun p => by rw [State.scanFrom, State.scanFrom, ih, hview]
  refine ⟨fun hslot => ?_, fun k hslot => ?_, fun k row hit spent hslot hend => ?_⟩
  · refine congrArg Host.Outcome.next ((State.request_of_accepts h tag _).trans ?_)
    simp only [hc, if_pos hlimit, hcursor, hslot]
    rfl
  · refine congrArg Host.Outcome.next ((State.request_of_accepts h tag _).trans ?_)
    simp only [hc, if_pos hlimit, hcursor, hslot]
    rfl
  · refine congrArg Host.Outcome.next ((State.request_of_accepts h tag _).trans ?_)
    simp only [hc, if_pos hlimit, hcursor, hslot, hscan, hend, hview]
    rfl

end Commands

theorem State.mapRefusal_eq_none_iff (s : State) (w : Attachment) : s.mapRefusal w = none ↔ match w with
    | .current f => (s.frame f).state ≠ .free
    | .previous f => (s.frame f).state ≠ .free ∧ (s.frame f).view ≠ none
    | .group g => (s.group g).state ≠ .undefined := by
  cases w with
  | current f => simp [State.mapRefusal]
  | previous f =>
    by_cases hfree : (s.frame f).state = .free <;> simp [State.mapRefusal, hfree]
  | group g => simp [State.mapRefusal]

/-- Settles O51: rows as attachments show them, the course of a SCAN row by row, and the answers of both commands. -/
theorem mapReadsAndScansReportRows : Obligations.MapReadsAndScansReportRows := by
  unfold Obligations.MapReadsAndScansReportRows
  refine ⟨fun f row e s he => ⟨State.rowView_current he, ?_⟩, ?_, ?_, scanConditionOf_isSome_iff, ?_, ?_⟩
  · intro v y hv hy shown later
    obtain ⟨hpreserved, hlost, hblank, hstanding⟩ := State.viewShows_of_entry he
    have hshown : ∀ {x}, s.viewShows f row = x → shown x := fun h => by
      show s.rowView (.previous f) row = _
      simp only [State.rowView, h]
    have hlater := State.laterPass_iff hv hy e
    exact ⟨fun q hq => hshown (hpreserved q hq), fun hp hl => hshown (hlost hp hl),
      fun hp hl h => hshown (hblank hp hl (hlater.mpr h)),
      fun hp hl h => hshown (hstanding hp hl (Bool.eq_false_iff.mpr fun h' => h (hlater.mp h')))⟩
  · intro g c s blank
    refine ⟨fun h => State.rowView_group_of_none (State.translate_of_not_covered h), 
      fun k hk hbest => ⟨fun hnone => ?_, fun f e hf he => ?_⟩⟩
    · exact State.rowView_group_of_none (by rw [State.translate_of_best hk hbest, hnone]; rfl)
    · refine State.rowView_group_of_some (m := { index := k, frame := f, row := s.sectionRow g k c }) ?_ he
      rw [State.translate_of_best hk hbest, hf]
      rfl
  · intro e p flight
    exact ⟨e.report_flight, rfl, rfl, rfl⟩
  · intro code parameter cond v hc entry line kept unfilled provisional firm holds
    refine ⟨?_, ?_, ?_, ?_, ?_, ?_, ?_, ?_, ?_, ?_, ?_, ?_⟩ <;> rintro rfl
    · obtain rfl : ScanCondition.empty = cond := Option.some.inj hc
      exact ScanCondition.holds_iff_or_blank ScanCondition.holdsOf_empty_iff v rfl nofun nofun
    · obtain rfl : ScanCondition.missed = cond := Option.some.inj hc
      exact ScanCondition.holds_iff ScanCondition.holdsOf_missed_iff v nofun nofun nofun
    · obtain rfl : ScanCondition.provisional = cond := Option.some.inj hc
      exact ScanCondition.holds_iff_or_preserved ScanCondition.holdsOf_provisional_iff v nofun (.inl rfl)
    · obtain rfl : ScanCondition.firm = cond := Option.some.inj hc
      exact ScanCondition.holds_iff ScanCondition.holdsOf_firm_iff v nofun nofun nofun
    · obtain rfl : ScanCondition.damaged = cond := Option.some.inj hc
      exact ScanCondition.holds_iff ScanCondition.holdsOf_damaged_iff v nofun nofun nofun
    · obtain rfl : ScanCondition.notFilled = cond := Option.some.inj hc
      exact ScanCondition.holds_iff_or_blank ScanCondition.holdsOf_notFilled_iff v (.inl rfl) nofun nofun
    · obtain rfl : ScanCondition.filled = cond := Option.some.inj hc
      have hfilled := ScanCondition.holds_iff_or_preserved ScanCondition.holdsOf_filled_iff v (by simp) (.inr rfl)
      simp only [and_or_left, exists_or, or_assoc] at hfilled
      exact hfilled
    · obtain ⟨-, rfl⟩ : parameter ≤ 255 ∧ ScanCondition.qualityBelow parameter = cond :=
        (Option.ite_none_right_eq_some.mp hc).imp_right Option.some.inj
      exact ScanCondition.holds_iff_line (fun _ => rfl) (fun l => decide_eq_true_iff) v nofun nofun
    · obtain ⟨-, rfl⟩ : parameter ≤ 255 ∧ ScanCondition.qualityAtLeast parameter = cond :=
        (Option.ite_none_right_eq_some.mp hc).imp_right Option.some.inj
      exact ScanCondition.holds_iff_line (fun _ => rfl) (fun l => decide_eq_true_iff) v nofun nofun
    · obtain ⟨i, rfl, rfl⟩ : ∃ i : SourceId, i.val = parameter ∧ ScanCondition.sourceIs i = cond := by
        obtain ⟨i, hi, hcond⟩ := Option.map_eq_some_iff.mp hc
        exact ⟨i, indexOf_eq_some_iff.mp hi, hcond⟩
      exact ScanCondition.holds_iff_line (fun _ => rfl) (fun l => decide_eq_true_iff.trans Fin.ext_iff) v nofun nofun
    · obtain rfl : ScanCondition.flagged = cond := Option.some.inj hc
      exact ScanCondition.holds_iff_line (fun _ => rfl) (fun l => by simp only [Bool.or_eq_true, or_assoc]) v nofun nofun
    · obtain ⟨-, rfl⟩ : (1 ≤ parameter ∧ parameter ≤ 15) ∧ ScanCondition.passIs parameter = cond :=
        (Option.ite_none_right_eq_some.mp hc).imp_right Option.some.inj
      exact ScanCondition.holds_iff (ScanCondition.holdsOf_passIs_iff parameter) v (by simp) nofun nofun
  · intro n tag s h
    refine ⟨fun kind number first count => ⟨exec_readMap_of_badRequest h tag, s.mapRefusal_eq_none_iff, fun w hw h1 h64 => ?_⟩,
      fun i condition parameter limit => ?_⟩
    · obtain ⟨hrefused, hallowed⟩ := exec_readMap_of_named h tag (first := first) hw ⟨h1, h64⟩
      refine ⟨fun f hf hfree => hrefused _ ?_, fun f hf hfree hview => hrefused _ ?_, fun g hg hundefined => hrefused _ ?_,
        fun hnone hrows => ?_, fun hnone hrows => ?_⟩
      · rcases hf with rfl | rfl <;> exact if_pos hfree
      · subst hf
        exact (if_neg hfree).trans (if_pos (Option.isNone_iff_eq_none.mpr hview))
      · subst hg
        exact if_pos hundefined
      · rw [hallowed hnone, if_neg (by omega)]
      · rw [hallowed hnone, if_pos hrows]
        rfl
    · intro c
      refine ⟨exec_scan_of_badRequest h tag, fun cond hc h1 hmax => ?_⟩
      obtain ⟨hclosed, hlost, hopened⟩ := exec_scan_of_ranges h tag (i := i) hc ⟨h1, hmax⟩
      refine ⟨hclosed, hlost, ?_⟩
      intro k hk tested seen ended
      refine ⟨fun j hj hit hbefore => ?_, fun hmiss => ?_⟩
      · rw [hopened k _ _ _ hk (State.scanFrom_of_hit limit hj hit hbefore)]
        by_cases hlast : j + 1 = limit
        · rw [if_pos hlast, decide_eq_true hlast]
          rfl
        · rw [if_neg hlast, decide_eq_false hlast]
          rfl
      · rw [hopened k _ _ _ hk (State.scanFrom_of_miss limit h1 hmiss)]
        rfl

end Sys2Proof.Machine
end

section
/-! SUPPORT. The seams that a group queues as it becomes JOINING (R102, R106), and the tests for JOINING and JOINED (R102). -/

namespace Sys2Proof.Machine

/-! ### One seam queued (R106) -/

/-- The seam has no result and no job (R106). -/
def State.seamFresh (s : State) (g : GroupId) (k : Nat) : Bool := (s.seam g k).any (fun m => decide (m.state = .none))

/-- A seam that is queued, or waits, where it had no job. -/
def Seam.enqueued (m : Seam) (st : SeamState) : Seam := if m.state ≠ .none then m else { m with state := st }

theorem State.seamFresh_iff (s : State) (g : GroupId) (k : Nat) :
    s.seamFresh g k = true ↔ ∃ m, s.seam g k = some m ∧ m.state = .none := by
  simp [State.seamFresh, Option.any_eq_true]

theorem State.queueSeam_of_not_fresh {s : State} {g : GroupId} {k : Nat} (h : s.seamFresh g k = false) : s.queueSeam g k = s := by
  unfold State.queueSeam
  cases hm : s.seam g k with
  | none => rfl
  | some m =>
    have hstate : m.state ≠ .none := fun hn => by simp [State.seamFresh, hm, hn] at h
    exact if_pos hstate

theorem State.queueSeam_of_fresh {s : State} {g : GroupId} {k : Nat} (h : s.seamFresh g k = true) :
    s.queueSeam g k = if s.seamQueue.length < 8 then
        { s with seamQueue := s.seamQueue ++ [(g, k)] }.modifySeam g k (fun x => { x with state := .queued })
      else s.modifySeam g k (fun x => { x with state := .waiting }) := by
  obtain ⟨m, hm, hstate⟩ := (s.seamFresh_iff g k).mp h
  unfold State.queueSeam
  rw [hm]
  exact if_neg (not_not_intro hstate)

/-- The seams of the group after one has been queued, and the queue. -/
theorem State.queueSeam_spec (s : State) (g : GroupId) (k : Nat) :
    let taken := if s.seamFresh g k = true ∧ s.seamQueue.length < 8 then [k] else []
    (s.queueSeam g k).group g = { s.group g with sections := ((s.queueSeam g k).group g).sections }
      ∧ (s.queueSeam g k).seamQueue = s.seamQueue ++ taken.map (fun j => (g, j))
      ∧ ∀ j, (s.queueSeam g k).seam g j =
        if j = k then (s.seam g k).map (fun m => m.enqueued (if k ∈ taken then .queued else .waiting)) else s.seam g j := by
  intro taken
  cases hf : s.seamFresh g k with
  | false =>
    have htaken : taken = [] := by simp [taken, hf]
    rw [State.queueSeam_of_not_fresh hf, htaken]
    refine ⟨rfl, (List.append_nil _).symm, fun j => ?_⟩
    by_cases hj : j = k
    · subst hj
      rw [if_pos rfl]
      cases hm : s.seam g j with
      | none => rfl
      | some m =>
        have hstate : m.state ≠ .none := fun hn => by simp [State.seamFresh, hm, hn] at hf
        rw [Option.map_some, Seam.enqueued, if_pos hstate]
    · rw [if_neg hj]
  | true =>
    obtain ⟨m, hm, hstate⟩ := (s.seamFresh_iff g k).mp hf
    have henqueued : ∀ st, (s.seam g k).map (fun m => m.enqueued st) = (s.seam g k).map (fun m => { m with state := st }) := fun st => by
      rw [hm, Option.map_some, Seam.enqueued, if_neg (not_not_intro hstate)]
      rfl
    rw [State.queueSeam_of_fresh hf]
    by_cases hroom : s.seamQueue.length < 8
    · have htaken : taken = [k] := if_pos ⟨hf, hroom⟩
      rw [if_pos hroom, htaken, henqueued]
      refine ⟨State.group_modifySeam _ _ _ _ _, rfl, fun j => ?_⟩
      rw [State.seam_modifySeam]
      simp only [true_and, List.mem_singleton, if_true]
      rfl
    · have htaken : taken = [] := if_neg fun h => hroom h.2
      rw [if_neg hroom, htaken, henqueued]
      refine ⟨State.group_modifySeam _ _ _ _ _, (List.append_nil _).symm, fun j => ?_⟩
      rw [State.seam_modifySeam]
      simp

/-! ### Seams queued one after another (R106) -/

/-- The seams of a list, queued in its order. -/
def State.queueSeams (s : State) (g : GroupId) (l : List Nat) : State := l.foldl (fun s k => s.queueSeam g k) s

/-- Of the seams of a list those that find room in the queue: the first fresh ones. -/
def State.seamsTaken (s : State) (g : GroupId) (l : List Nat) : List Nat := (l.filter (s.seamFresh g)).take (8 - s.seamQueue.length)

theorem State.queueSeams_of_none_fresh {s : State} {g : GroupId} (h : ∀ k, s.seamFresh g k = false) :
    ∀ l, s.queueSeams g l = s
  | [] => rfl
  | k :: l => by
    rw [State.queueSeams, List.foldl_cons, State.queueSeam_of_not_fresh (h k)]
    exact State.queueSeams_of_none_fresh h l

/-- The list's head is queued first, and the rest as it would be without it. -/
theorem State.seamsTaken_cons {s : State} {g : GroupId} {k : Nat} {l : List Nat} (hk : k ∉ l) : s.seamsTaken g (k :: l)
    = (if s.seamFresh g k = true ∧ s.seamQueue.length < 8 then [k] else []) ++ (s.queueSeam g k).seamsTaken g l := by
  obtain ⟨-, hqueue, hseam⟩ := s.queueSeam_spec g k
  have hfresh : ∀ j ∈ l, (s.queueSeam g k).seamFresh g j = s.seamFresh g j := fun j hj => by
    have hjk : j ≠ k := fun h => hk (h ▸ hj)
    rw [State.seamFresh, hseam, if_neg hjk]
    rfl
  have hrest : (s.queueSeam g k).seamsTaken g l
      = (l.filter (s.seamFresh g)).take (8 - (s.queueSeam g k).seamQueue.length) := by
    rw [State.seamsTaken, List.filter_congr hfresh]
  rw [hrest, hqueue]
  cases hf : s.seamFresh g k with
  | false => simp [State.seamsTaken, hf]
  | true =>
    by_cases hroom : s.seamQueue.length < 8
    · have hroom' : 8 - s.seamQueue.length = (8 - (s.seamQueue.length + 1)) + 1 := by omega
      simp [State.seamsTaken, hf, hroom, hroom']
    · have hfull : 8 - s.seamQueue.length = 0 := by omega
      simp [State.seamsTaken, hf, hroom, hfull]

theorem State.queueSeams_spec (g : GroupId) (l : List Nat) : l.Nodup → ∀ s : State,
    (s.queueSeams g l).group g = { s.group g with sections := ((s.queueSeams g l).group g).sections }
      ∧ (s.queueSeams g l).seamQueue = s.seamQueue ++ (s.seamsTaken g l).map (fun j => (g, j))
      ∧ ∀ j, (s.queueSeams g l).seam g j =
        if j ∈ l then (s.seam g j).map (fun m => m.enqueued (if j ∈ s.seamsTaken g l then .queued else .waiting)) else s.seam g j := by
  induction l with
  | nil => exact fun _ s => ⟨rfl, by simp [State.queueSeams, State.seamsTaken], fun j => by simp [State.queueSeams]⟩
  | cons k l ih =>
    intro hnodup s
    obtain ⟨hk, hl⟩ := List.nodup_cons.mp hnodup
    obtain ⟨hgroup, hqueue, hseam⟩ := s.queueSeam_spec g k
    obtain ⟨hgroup', hqueue', hseam'⟩ := ih hl (s.queueSeam g k)
    have hfold : s.queueSeams g (k :: l) = (s.queueSeam g k).queueSeams g l := rfl
    have hrest : ∀ j ∈ (s.queueSeam g k).seamsTaken g l, j ∈ l := fun j hj => List.mem_of_mem_filter (List.mem_of_mem_take hj)
    rw [hfold, State.seamsTaken_cons hk]
    refine ⟨by rw [hgroup', hgroup], by rw [hqueue', hqueue, List.map_append, List.append_assoc], fun j => ?_⟩
    rw [hseam', hseam]
    by_cases hjk : j = k
    · subst hjk
      have hnot : j ∉ (s.queueSeam g j).seamsTaken g l := fun h => hk (hrest j h)
      simp [hk, hnot]
    · by_cases hjl : j ∈ l
      · have hmem : (j ∈ (if s.seamFresh g k = true ∧ s.seamQueue.length < 8 then [k] else []) ++ (s.queueSeam g k).seamsTaken g l)
            ↔ j ∈ (s.queueSeam g k).seamsTaken g l := by
          rw [List.mem_append]
          refine or_iff_right fun h => hjk ?_
          split at h
          · exact List.mem_singleton.mp h
          · exact absurd h List.not_mem_nil
        simp only [hjl, if_true, hjk, if_false, List.mem_cons, or_true, hmem]
      · simp [hjk, hjl]

/-! ### The tests for JOINING and JOINED (R102) -/

/-- No seam of the group lacks a result (R102). -/
def State.allRecorded (s : State) (g : GroupId) : Prop := ∀ k m, s.seam g k = some m → m.state = .found ∨ m.state = .weak

theorem State.all_isRecorded_iff (s : State) (g : GroupId) :
    (s.group g).sections.all (fun y => y.seam.all Seam.isRecorded) = true ↔ s.allRecorded g := by
  simp only [List.all_eq_true, Option.all_eq_true, Seam.isRecorded, decide_eq_true_eq, State.allRecorded, State.seam,
    Option.bind_eq_some_iff, List.mem_iff_getElem?]
  exact ⟨fun h k m ⟨y, hy, hm⟩ => h y ⟨k, hy⟩ m hm, fun h y ⟨k, hy⟩ m hm => h k m ⟨y, hy, hm⟩⟩

theorem State.allRecorded.not_fresh {s : State} {g : GroupId} (h : s.allRecorded g) (k : Nat) : s.seamFresh g k = false := by
  refine Bool.eq_false_iff.mpr fun hf => ?_
  obtain ⟨m, hm, hstate⟩ := (s.seamFresh_iff g k).mp hf
  rcases h k m hm with hr | hr <;> exact absurd (hstate.symm.trans hr) (by decide)

theorem State.testJoined_of_recorded {b s : State} {g : GroupId} (hstate : (s.group g).state = .joining) (h : s.allRecorded g) :
    b.testJoined s g = (b.enterGroup s g .joined).raise (.group g) (.mosaicJoined (s.group g).height (s.group g).weakCount) :=
  if_pos ⟨hstate, (s.all_isRecorded_iff g).mpr h⟩

theorem State.testJoined_of_not_recorded {b s : State} {g : GroupId} (h : ¬ s.allRecorded g) : b.testJoined s g = s :=
  if_neg fun hj => h ((s.all_isRecorded_iff g).mp hj.2)

/-- The group is GATHERING and each of its sections has a settled frame (R102). -/
def State.joinReady (s : State) (g : GroupId) : Prop := (s.group g).state = .gathering ∧ ∀ y ∈ (s.group g).sections, s.settledIn y

theorem FrameState.isSettled_iff (x : FrameState) : x.isSettled = true ↔ x = .complete ∨ x = .partialOnly := by
  cases x <;> simp [FrameState.isSettled]

theorem State.sectionSettled_iff (s : State) (y : MosaicSection) : s.sectionSettled y = true ↔ s.settledIn y := by
  simp only [State.sectionSettled, State.settledIn, Option.any_eq_true, FrameState.isSettled_iff]

theorem State.joinReady_iff (s : State) (g : GroupId) : s.joinReady g ↔
    (s.group g).state = .gathering ∧ (s.group g).sections.all s.sectionSettled = true := by
  simp only [State.joinReady, List.all_eq_true, State.sectionSettled_iff]

theorem State.testJoining_of_not_ready {b s : State} {g : GroupId} (h : ¬ s.joinReady g) : b.testJoining s g = s :=
  if_neg fun hr => h ((s.joinReady_iff g).mpr hr)

theorem State.testJoining_of_ready {b s : State} {g : GroupId} (h : s.joinReady g) : b.testJoining s g =
    b.testJoined ((b.enterGroup s g .joining).queueSeams g (List.range (s.group g).sections.length)) g :=
  if_pos ((s.joinReady_iff g).mp h)

/-- What entering a state leaves of the group's seams, and of the queue. -/
theorem State.enterGroup_spec (b s : State) (g : GroupId) (st : GroupState) :
    (b.enterGroup s g st).group g = { s.group g with state := st, stamp := next16 (b.group g).stamp }
      ∧ (b.enterGroup s g st).seamQueue = s.seamQueue ∧ ∀ k, (b.enterGroup s g st).seam g k = s.seam g k := by
  have hgroup : (b.enterGroup s g st).group g = { s.group g with state := st, stamp := next16 (b.group g).stamp } := by
    rw [State.enterGroup, State.modifyGroup_eq, State.group_setGroup_self]
  exact ⟨hgroup, rfl, fun k => State.seam_congr (by rw [hgroup]) k⟩

/-- A group that is ready and whose seams all have results is JOINED at once (R102). -/
theorem State.testJoining_joins {b s : State} {g : GroupId} (h : s.joinReady g) (hr : s.allRecorded g) :
    (b.testJoining s g).group g = { s.group g with state := .joined, stamp := next16 (b.group g).stamp }
      ∧ (b.testJoining s g).seamQueue = s.seamQueue
      ∧ ∀ n, (s.client n).levels[(10 : Fin 16)] ≠ 0 →
        (b.testJoining s g).hasFiled n (.group g) (.mosaicJoined (s.group g).height (s.group g).weakCount) := by
  obtain ⟨hgroup, hqueue, hseam⟩ := b.enterGroup_spec s g .joining
  have hclient : ∀ n, (b.enterGroup s g .joining).client n = s.client n := fun _ => rfl
  rw [State.testJoining_of_ready h]
  generalize b.enterGroup s g .joining = e at hgroup hqueue hseam hclient ⊢
  have hrecorded : e.allRecorded g := fun k m hm => hr k m (by rw [← hseam]; exact hm)
  have hweak : (e.group g).weakCount = (s.group g).weakCount := by rw [hgroup]; rfl
  rw [State.queueSeams_of_none_fresh hrecorded.not_fresh, State.testJoined_of_recorded (by rw [hgroup]) hrecorded, hweak]
  obtain ⟨hgroup', hqueue', -⟩ := b.enterGroup_spec e g .joined
  refine ⟨?_, ?_, fun n hn => ?_⟩
  · rw [State.group_raise, hgroup', hgroup]
  · rw [State.raise_eq]
    exact hqueue'.trans hqueue
  · rw [hgroup]
    exact State.raise_hasFiled _ (show ((b.enterGroup e g .joined).client n).levels[(10 : Fin 16)] ≠ 0 by
      rw [show (b.enterGroup e g .joined).client n = e.client n from rfl, hclient]
      exact hn)

/-- A group that is ready becomes JOINING, its NONE seams queued while there is room, where a seam lacks a result (R102, R106). -/
theorem State.testJoining_queues {b s : State} {g : GroupId} (h : s.joinReady g) (hr : ¬ s.allRecorded g) :
    let taken := s.seamsTaken g (List.range (s.group g).sections.length)
    (b.testJoining s g).group g = { s.group g with
        state := .joining, stamp := next16 (b.group g).stamp, sections := ((b.testJoining s g).group g).sections }
      ∧ (b.testJoining s g).seamQueue = s.seamQueue ++ taken.map (fun k => (g, k))
      ∧ ∀ k, (b.testJoining s g).seam g k = (s.seam g k).map (fun m => m.enqueued (if k ∈ taken then .queued else .waiting)) := by
  intro taken
  obtain ⟨hgroup, hqueue, hseam⟩ := b.enterGroup_spec s g .joining
  rw [State.testJoining_of_ready h]
  generalize b.enterGroup s g .joining = e at hgroup hqueue hseam ⊢
  have htaken : e.seamsTaken g (List.range (s.group g).sections.length) = taken := by
    have hfresh : e.seamFresh g = s.seamFresh g := funext fun k => by rw [State.seamFresh, hseam]; rfl
    rw [State.seamsTaken, hfresh, hqueue]
    rfl
  obtain ⟨hqgroup, hqqueue, hqseam⟩ := State.queueSeams_spec g (List.range (s.group g).sections.length) List.nodup_range e
  rw [htaken] at hqqueue hqseam
  generalize e.queueSeams g (List.range (s.group g).sections.length) = q at hqgroup hqqueue hqseam ⊢
  have hall : ∀ k, q.seam g k = (s.seam g k).map (fun m => m.enqueued (if k ∈ taken then .queued else .waiting)) := fun k => by
    rw [hqseam, hseam]
    split
    · rfl
    · next hk =>
      have hnone : s.seam g k = none := by
        rw [State.seam, List.getElem?_eq_none (by simpa using hk)]
        rfl
      rw [hnone]
      rfl
  have hunrecorded : ¬ q.allRecorded g := fun hq => hr fun k m hm => by
    have hqm : q.seam g k = some (m.enqueued (if k ∈ taken then .queued else .waiting)) := by rw [hall, hm]; rfl
    have hstate := hq k _ hqm
    by_cases hnone : m.state = .none
    · rw [Seam.enqueued, if_neg (not_not_intro hnone)] at hstate
      split at hstate <;> simp at hstate
    · rwa [Seam.enqueued, if_pos hnone] at hstate
  rw [State.testJoined_of_not_recorded hunrecorded]
  exact ⟨by rw [hqgroup, hgroup], by rw [hqqueue, hqueue], hall⟩

end Sys2Proof.Machine
end

section
/-! Settles O34: the settle expiry (R81), by way of the judged frame, its view if no cursor reads it (R84), and the mosaic unit (R101). -/

namespace Sys2Proof.Machine

/-! ### The course of a settling (R81) -/

/-- The frame with its verdict and time, its stamp one further (R81). -/
def Frame.judged (x : Frame) (complete : Bool) (time : Nat × Nat) : Frame :=
  { x with
    state := if complete then .complete else .partialOnly, settledAt := some time, settleTimer := none, stamp := next16 x.stamp }

/-- The frame's pass is judged (R81). -/
def State.judgedAt (s : State) (f : FrameId) : State := s.setFrame f ((s.frame f).judged (s.verdict f) s.clock.time)

/-- The frame's view is released where no cursor is attached to it (R84). -/
def State.unreadReleased (s : State) (f : FrameId) : State :=
  if ((s.frame f).view.bind s.view).any (fun v => v.cursors == 0) then s.releaseView f .viewReleased else s

/-- The enable and pending marks are cleared (R81). -/
def State.marksCleared (s : State) (f : FrameId) : State := s.setFrame f { s.frame f with enable := false, pendingMark := false }

theorem State.settle_eq (s : State) (f : FrameId) : s.settle f = (if (s.frame f).enable then
      (((s.judgedAt f).unreadReleased f).tellSettled f).raise (.frame f) (.passSettled (s.frame f).pass (s.verdict f))
    else ((s.judgedAt f).unreadReleased f).tellSettled f).marksCleared f := rfl

theorem exec_settleExpiry {s : State} {f : FrameId} {k : Nat} (hs : (s.frame f).state = .settling) (ht : (s.frame f).settleTimer = some k) :
    exec (.settleExpiry f) s = .next (s.settle f) :=
  congrArg Host.Outcome.next (if_pos ⟨hs, by rw [ht]; rfl⟩)

theorem State.verdict_eq {s : State} {f : FrameId} {g : Geometry} (h : (s.frame f).geometry = some g) :
    s.verdict f = decide (s.storeConfig.completePerMille * g.rows ≤ (s.frame f).coverage * 1000) := by
  simp only [State.verdict, Frame.meetsComplete, h]

/-! ### The release of a view that no cursor reads (R84) -/

/-- From `s` to `t` the frame's view has been released if no cursor was attached to it, and kept otherwise. -/
structure State.ReleasesUnread (s t : State) (f : FrameId) : Prop where
  only    : t = { s with
    frames := t.frames, views := t.views, pool := t.pool, holders := t.holders, seamHolder := t.seamHolder, cursors := t.cursors
    clients := t.clients, ports := t.ports }
  frame   : t.frame f = { s.frame f with view := (t.frame f).view, pins := (t.frame f).pins, rowMap := (t.frame f).rowMap }
  states  : (t.frame f).rowMap.map RowEntry.state = (s.frame f).rowMap.map RowEntry.state
  others  : ∀ g, g ≠ f → (t.frame g).state = (s.frame g).state
  notices : s.SaysOnly [12] t
  read    : ∀ v y, (s.frame f).view = some v → s.view v = some y → y.cursors ≠ 0 → t = s
  unread  : ∀ v y, (s.frame f).view = some v → s.view v = some y → y.cursors = 0 → (t.frame f).view = none ∧ t.view v = none
    ∧ (∀ p h, s.poolRow p = some h → h.view = v → t.poolRow p = none)
    ∧ ∀ e ∈ (t.frame f).rowMap, e.preserved = none ∧ e.lost = false

theorem State.unreadReleased_of_no_view {s : State} {f : FrameId} (h : (s.frame f).view = none) : s.unreadReleased f = s := by
  rw [State.unreadReleased, h]
  rfl

theorem State.unreadReleased_releases (s : State) (f : FrameId) : s.ReleasesUnread (s.unreadReleased f) f := by
  unfold State.unreadReleased
  split
  · next hunread =>
    have hrel := s.releaseView_releases f .viewReleased
    generalize s.releaseView f .viewReleased = t at hrel ⊢
    refine ⟨hrel.only, ?_, hrel.states, fun g hg => by rw [hrel.others g hg]; rfl, hrel.notices, fun v y hv hy hne => ?_,
      fun v y hv hy _ => ⟨by rw [hrel.frame], by rw [hrel.views, if_pos hv], fun p h hp hh => ?_, hrel.rows (by rw [hv]; nofun)⟩⟩
    · rw [hrel.frame]
      rfl
    · rw [hv, Option.bind_some, hy] at hunread
      exact absurd (beq_iff_eq.mp hunread) hne
    · rw [hrel.pool, hp, hv, ← hh]
      simp
  · next hread =>
    refine ⟨rfl, rfl, rfl, fun _ _ => rfl, .refl s, fun _ _ _ _ _ => rfl, fun v y hv hy hzero => absurd ?_ hread⟩
    rw [hv, Option.bind_some, hy]
    exact beq_iff_eq.mpr hzero

/-! ### The mosaic unit is told (R101), and PASS_SETTLED raised (R81) -/

theorem State.tellSettled_of_member {s : State} {f : FrameId} {g : GroupId} {k : Nat} (h : (s.frame f).mosaic = some (g, k)) :
    s.tellSettled f = s.testJoining s g := by
  unfold State.tellSettled
  rw [h]

theorem State.tellSettled_of_no_member {s : State} {f : FrameId} (h : (s.frame f).mosaic = none) : s.tellSettled f = s := by
  unfold State.tellSettled
  rw [h]

theorem State.tellSettled_sectionsKept (s : State) (f : FrameId) : s.SectionsKept (s.tellSettled f) := by
  unfold State.tellSettled
  split
  · exact State.testJoining_sectionsKept _ _ _
  · exact .refl s

/-- From `s` to `t` frame `f` has settled: by way of `b`, in which it is judged and its view released if unread, after which MU is told,
PASS_SETTLED raised where it is owed, and both marks cleared. -/
structure State.Settles (s b t : State) (f : FrameId) : Prop where
  judged    : (s.judgedAt f).ReleasesUnread b f
  frame     : t.frame f = { b.frame f with enable := false, pendingMark := false }
  views     : t.views = b.views
  pool      : t.pool = b.pool
  groups    : t.groups = (b.tellSettled f).groups
  seamQueue : t.seamQueue = (b.tellSettled f).seamQueue
  notices   : (b.tellSettled f).SaysOnly [1] t
  told      : (s.frame f).enable = true → ∀ n, (s.client n).levels[(1 : Fin 16)] ≠ 0 →
    t.hasFiled n (.frame f) (.passSettled (s.frame f).pass (s.verdict f))

theorem State.settle_settles (s : State) (f : FrameId) : s.Settles ((s.judgedAt f).unreadReleased f) (s.settle f) f := by
  have hjudged := (s.judgedAt f).unreadReleased_releases f
  have haclient : ∀ n, (s.judgedAt f).client n = s.client n := fun _ => rfl
  rw [State.settle_eq]
  generalize (s.judgedAt f).unreadReleased f = b at hjudged ⊢
  have hmoved := b.tellSettled_remosaics f
  have hkept := b.tellSettled_sectionsKept f
  generalize hc : b.tellSettled f = c at hmoved hkept ⊢
  have hlevels : ∀ n, (c.client n).levels = (s.client n).levels := fun n => by
    rw [hmoved.notices.levels, hjudged.notices.levels, haclient]
  have hcleared : ∀ d : State, d.SaysOnly [1] (d.marksCleared f) := fun _ => .of_eq rfl
  have hframe : ∀ d : State, (d.marksCleared f).frame f = { d.frame f with enable := false, pendingMark := false } :=
    fun d => State.frame_setFrame_self d f _
  have hraise := State.SaysOnly.raise (kinds := [1]) c (.frame f) (d := .passSettled (s.frame f).pass (s.verdict f))
    (show (1 : Fin 16) ∈ ([1] : List (Fin 16)) by decide)
  have hviews : c.views = b.views := (congrArg State.views hmoved.only :)
  have hpool : c.pool = b.pool := (congrArg State.pool hmoved.only :)
  cases howed : (s.frame f).enable with
  | true =>
    rw [if_pos rfl]
    refine ⟨hjudged, ?_, ?_, ?_, ?_, ?_, ?_, fun _ n hn => ?_⟩
    · rw [hframe, State.frame_raise, hkept.frame]
    · rw [State.raise_eq]
      exact hviews
    · rw [State.raise_eq]
      exact hpool
    · rw [State.raise_eq, hc]
      rfl
    · rw [State.raise_eq, hc]
      rfl
    · rw [hc]
      exact hraise.trans (hcleared _)
    · exact State.raise_hasFiled (s := c) (.frame f) (d := .passSettled (s.frame f).pass (s.verdict f))
        (show (c.client n).levels[(1 : Fin 16)] ≠ 0 by rw [hlevels]; exact hn)
  | false =>
    rw [if_neg (by decide)]
    refine ⟨hjudged, ?_, hviews, hpool, by rw [hc]; rfl, by rw [hc]; rfl, by rw [hc]; exact hcleared c,
      fun hf => absurd (howed.symm.trans hf) Bool.false_ne_true⟩
    rw [hframe, hkept.frame]

/-! ### A group that the frame is bound in (R102) -/

section Told
variable {s b t : State} {f : FrameId} (h : s.Settles b t f)
include h

theorem State.Settles.group_before (g : GroupId) : b.group g = s.group g := by
  have hgroups : b.groups = s.groups := (congrArg State.groups h.judged.only :)
  simp only [State.group, hgroups]

theorem State.Settles.seam_before (g : GroupId) (k : Nat) : b.seam g k = s.seam g k :=
  State.seam_congr (congrArg Group.sections (h.group_before g)) k

theorem State.Settles.queue_before : b.seamQueue = s.seamQueue := (congrArg State.seamQueue h.judged.only :)

theorem State.Settles.levels_before (n : ClientId) : (b.client n).levels = (s.client n).levels := h.judged.notices.levels n

theorem State.Settles.frame_before : b.frame f = { (s.frame f).judged (s.verdict f) s.clock.time with
    view := (b.frame f).view, pins := (b.frame f).pins, rowMap := (b.frame f).rowMap } := by
  have hframe := h.judged.frame
  rw [State.judgedAt, State.frame_setFrame_self] at hframe
  exact hframe

theorem State.Settles.settledIn_iff (y : MosaicSection) : b.settledIn y ↔ y.frame = some f ∨ s.settledIn y := by
  have hself : (b.frame f).state = .complete ∨ (b.frame f).state = .partialOnly := by
    rw [h.frame_before]
    show (if s.verdict f = true then FrameState.complete else FrameState.partialOnly) = .complete
      ∨ (if s.verdict f = true then FrameState.complete else FrameState.partialOnly) = .partialOnly
    split
    · exact .inl rfl
    · exact .inr rfl
  have hother : ∀ q, q ≠ f → (b.frame q).state = (s.frame q).state := fun q hq => by
    rw [h.judged.others q hq, State.judgedAt, State.frame_setFrame, if_neg hq]
  constructor
  · rintro ⟨q, hq, hsettled⟩
    by_cases hqf : q = f
    · exact .inl (hqf ▸ hq)
    · exact .inr ⟨q, hq, by rwa [hother q hqf] at hsettled⟩
  · rintro (hq | ⟨q, hq, hsettled⟩)
    · exact ⟨f, hq, hself⟩
    · by_cases hqf : q = f
      · exact ⟨q, hq, hqf ▸ hself⟩
      · exact ⟨q, hq, by rwa [hother q hqf]⟩

theorem State.Settles.joinReady_iff (g : GroupId) : b.joinReady g ↔
    (s.group g).state = .gathering ∧ ∀ y ∈ (s.group g).sections, y.frame = some f ∨ s.settledIn y := by
  simp only [State.joinReady, h.group_before, h.settledIn_iff]

theorem State.Settles.allRecorded_iff (g : GroupId) : b.allRecorded g ↔ s.allRecorded g := by
  simp only [State.allRecorded, h.seam_before]

theorem State.Settles.seamsTaken_before (g : GroupId) (l : List Nat) : b.seamsTaken g l = s.seamsTaken g l := by
  have hfresh : b.seamFresh g = s.seamFresh g := funext fun k => by rw [State.seamFresh, h.seam_before]; rfl
  rw [State.seamsTaken, hfresh, h.queue_before]
  rfl

/-- The frame as the settling leaves it (R81). -/
theorem State.Settles.frame_after : t.frame f = { (s.frame f).judged (s.verdict f) s.clock.time with
    enable := false, pendingMark := false, view := (t.frame f).view, pins := (t.frame f).pins, rowMap := (t.frame f).rowMap } := by
  rw [h.frame, h.frame_before]

theorem State.Settles.states : (t.frame f).rowMap.map RowEntry.state = (s.frame f).rowMap.map RowEntry.state := by
  rw [h.frame]
  refine h.judged.states.trans ?_
  rw [State.judgedAt, State.frame_setFrame_self]
  rfl

/-- A view with a cursor attached is kept, and one with none released (R84). -/
theorem State.Settles.view {v : ViewId} {y : View} (hv : (s.frame f).view = some v) (hy : s.view v = some y) :
    (y.cursors ≠ 0 → (t.frame f).view = some v ∧ t.view v = some y ∧ t.pool = s.pool)
      ∧ (y.cursors = 0 → (t.frame f).view = none ∧ t.view v = none
        ∧ (∀ p h, s.poolRow p = some h → h.view = v → t.poolRow p = none)
        ∧ ∀ e ∈ (t.frame f).rowMap, e.preserved = none ∧ e.lost = false) := by
  have hview : t.view v = b.view v := by simp only [State.view, h.views]
  have hjview : ((s.judgedAt f).frame f).view = some v := by rw [State.judgedAt, State.frame_setFrame_self]; exact hv
  refine ⟨fun hread => ?_, fun hunread => ?_⟩
  · have hb : b = s.judgedAt f := h.judged.read v y hjview hy hread
    rw [hview, h.frame, h.pool, hb]
    exact ⟨hjview, hy, rfl⟩
  · obtain ⟨hnone, hgone, hfreed, hrows⟩ := h.judged.unread v y hjview hy hunread
    rw [hview, h.frame]
    refine ⟨hnone, hgone, fun p k hp hk => ?_, hrows⟩
    rw [show t.poolRow p = b.poolRow p by simp only [State.poolRow, h.pool]]
    exact hfreed p k hp hk

/-- What becomes of the groups where the frame is a member of one (R101). -/
theorem State.Settles.told_of_member {q : GroupId} {j : Nat} (hm : (s.frame f).mosaic = some (q, j)) :
    b.tellSettled f = b.testJoining b q := by
  refine State.tellSettled_of_member (k := j) ?_
  rw [h.frame_before]
  exact hm

theorem State.Settles.group_after (q : GroupId) : t.group q = (b.tellSettled f).group q := by simp only [State.group, h.groups]

end Told

/-- The settling of a frame that has no view and is in no group (R81). -/
theorem State.settle_alone {s : State} {f : FrameId} (hm : (s.frame f).mosaic = none) (hv : (s.frame f).view = none) :
    let settled := { (s.frame f).judged (s.verdict f) s.clock.time with enable := false, pendingMark := false }
    s.settle f = if (s.frame f).enable then (s.setFrame f settled).raise (.frame f) (.passSettled (s.frame f).pass (s.verdict f))
      else s.setFrame f settled := by
  intro settled
  have hself : (s.judgedAt f).frame f = (s.frame f).judged (s.verdict f) s.clock.time := State.frame_setFrame_self s f _
  have hkept : ((s.judgedAt f).unreadReleased f).tellSettled f = s.judgedAt f := by
    rw [State.unreadReleased_of_no_view (by rw [hself]; exact hv), State.tellSettled_of_no_member (by rw [hself]; exact hm)]
  have hcleared : (s.judgedAt f).marksCleared f = s.setFrame f settled := by
    rw [State.marksCleared, hself, State.judgedAt, State.setFrame_setFrame]
  rw [State.settle_eq, hkept]
  split
  · rw [State.marksCleared, State.frame_raise, State.setFrame_raise]
    exact congrArg (fun u => State.raise u _ _) hcleared
  · exact hcleared

/-- Settles O34: the frame is judged, an unread view released, MU told, and what the settling owes raised. -/
theorem settleExpiryJudgesThePass : Obligations.SettleExpiryJudgesThePass := by
  unfold Obligations.SettleExpiryJudgesThePass
  intro f g k s x hs ht hg complete settled
  have hverdict : s.verdict f = complete := State.verdict_eq hg
  refine ⟨fun hm hv => ?_, s.settle f, exec_settleExpiry hs ht, ?_⟩
  · rw [exec_settleExpiry hs ht, State.settle_alone hm hv, hverdict]
    rfl
  have h := s.settle_settles f
  generalize (s.judgedAt f).unreadReleased f = b at h
  generalize s.settle f = t at h ⊢
  refine ⟨by rw [h.frame_after, hverdict]; rfl, h.states, fun n howed hn => ?_, fun v y hv hy => h.view hv hy, fun q j hm => ?_⟩
  · rw [← hverdict]
    exact h.told howed n hn
  have htold := h.told_of_member hm
  have hgroup := h.group_after
  rw [htold] at hgroup
  intro sections ready recorded fresh taken
  have hready : b.joinReady q ↔ ready := h.joinReady_iff q
  have hrecorded : b.allRecorded q ↔ recorded := h.allRecorded_iff q
  refine ⟨fun hn => ?_, fun p hp => ?_, fun hr hrec => ?_, fun hr hrec => ?_⟩
  · rw [h.groups, h.seamQueue, htold, State.testJoining_of_not_ready (hready.not.mpr hn), h.queue_before]
    exact ⟨(congrArg State.groups h.judged.only :), rfl⟩
  · rw [hgroup, State.group_testJoining_of_ne hp, h.group_before]
  · obtain ⟨hjoined, hqueue, htells⟩ := State.testJoining_joins (b := b) (hready.mpr hr) (hrecorded.mpr hrec)
    rw [h.group_before] at hjoined htells
    refine ⟨by rw [hgroup, hjoined], by rw [h.seamQueue, htold, hqueue, h.queue_before], fun n hn => ?_⟩
    have hfiled := htells n (by rw [h.levels_before]; exact hn)
    rw [← htold] at hfiled
    exact h.notices.hasFiled hfiled (show (10 : Fin 16) ∉ [1] by decide)
  · obtain ⟨hjoining, hqueue, hseams⟩ := State.testJoining_queues (b := b) (hready.mpr hr) (hrecorded.not.mpr hrec)
    rw [h.seamsTaken_before, h.group_before] at hqueue hseams
    rw [h.group_before] at hjoining
    refine ⟨by rw [hgroup]; exact hjoining, by rw [h.seamQueue, htold, hqueue, h.queue_before]; rfl, ?_, fun k => ?_⟩
    · have hbare := (State.testJoining_sectionsKept b b q).sections q
      rw [h.group_before, ← hgroup] at hbare
      have hstripped := congrArg (List.map (fun y : MosaicSection => { y with seam := none })) hbare
      rw [List.map_map, List.map_map] at hstripped
      exact hstripped
    · rw [State.seam_congr (congrArg Group.sections (hgroup q)), hseams, h.seam_before]
      rfl

end Sys2Proof.Machine
end

section
/-! SUPPORT. Cursors that leave and take attachments: what leaving a view does to it (R91, R92, R142), and the pins (R153). -/

namespace Sys2Proof.Machine

/-! ### Pins (R153) -/

theorem Frame.setRetain_setRetain (x : Frame) (c : CursorId) (a b : Bool) : (x.setRetain c a).setRetain c b = x.setRetain c b := by
  simp [Frame.setRetain, setMember, Vector.set_set]

theorem State.frame_unpinCursor (s : State) (c : CursorId) (f : FrameId) :
    (s.unpinCursor c).frame f = (s.frame f).setRetain c false := by
  simp only [State.unpinCursor, State.frame, Vector.getElem_map]

/-- A cursor's pins: nothing else changes, and the frames attached to hold it. -/
theorem State.pinCursor_spec (s : State) (c : CursorId) (a : Attachment) :
    s.pinCursor c a = { s with frames := (s.pinCursor c a).frames }
      ∧ ∀ f, (s.pinCursor c a).frame f = if f ∈ s.attachedFrames a then (s.frame f).setRetain c true else s.frame f := by
  have fold : ∀ (l : List FrameId) (u : State),
      l.foldl (fun s f => s.modifyFrame f (fun x => x.setRetain c true)) u
          = { u with frames := (l.foldl (fun s f => s.modifyFrame f (fun x => x.setRetain c true)) u).frames }
        ∧ ∀ f, (l.foldl (fun s f => s.modifyFrame f (fun x => x.setRetain c true)) u).frame f
          = if f ∈ l then (u.frame f).setRetain c true else u.frame f := fun l => by
    induction l with
    | nil => exact fun _ => ⟨rfl, fun _ => rfl⟩
    | cons q l ih =>
      intro u
      obtain ⟨honly, hframe⟩ := ih (u.modifyFrame q (fun x => x.setRetain c true))
      refine ⟨by rw [List.foldl_cons, honly]; rfl, fun f => ?_⟩
      rw [List.foldl_cons, hframe, State.modifyFrame_eq, State.frame_setFrame]
      by_cases hq : f = q
      · subst hq
        simp [Frame.setRetain_setRetain]
      · simp [hq]
  exact fold _ s

/-! ### A view that is left (R91) -/

theorem State.loseCursors_of_none {s : State} {p : Cursor → Bool} (h : ∀ c, p (s.cursor c) = false) (cause : LostCause) :
    s.loseCursors p cause = s := by
  have fold : ∀ l : List CursorId, l.foldl (fun s c => if p (s.cursor c) then s.loseCursor c cause else s) s = s := fun l => by
    induction l with
    | nil => rfl
    | cons c l ih => rw [List.foldl_cons, h c, if_neg (by decide), ih]
  exact fold _

/-- A view that no cursor reads is released, and nothing else follows. -/
theorem State.releaseView_unread {s : State} {f : FrameId} {v : ViewId} (hv : (s.frame f).view = some v)
    (hnone : ∀ c, (s.cursor c).onPrevious f = false) (cause : LostCause) :
    s.releaseView f cause = { s with
        frames := (s.releaseView f cause).frames, views := (s.releaseView f cause).views, pool := (s.releaseView f cause).pool
        holders := (s.releaseView f cause).holders, seamHolder := (s.releaseView f cause).seamHolder }
      ∧ (s.releaseView f cause).frame f
        = { s.frame f with view := none, rowMap := (s.frame f).rowMap.map RowEntry.viewReleased }
      ∧ (∀ g, g ≠ f → (s.releaseView f cause).frame g = s.frame g)
      ∧ (∀ w, (s.releaseView f cause).view w = if w = v then none else s.view w)
      ∧ ∀ p, (s.releaseView f cause).poolRow p = if (s.poolRow p).any (fun h => h.view == v) then none else s.poolRow p := by
  have honly := s.viewEmptied_only f v
  have hframe := s.frame_viewEmptied f v
  have hpool := s.poolRow_viewEmptied f v
  rw [State.releaseView_of_some hv]
  generalize s.viewEmptied f v = e at honly hframe hpool ⊢
  have hcursor : ∀ c, e.cursor c = s.cursor c := fun c => by simp only [State.cursor, congrArg State.cursors honly]
  rw [State.loseCursors_of_none (fun c => by rw [hcursor]; exact hnone c)]
  have hview : ∀ w, e.view w = s.view w := fun w => by simp only [State.view, congrArg State.views honly]
  refine ⟨?_, ?_, fun g hg => ?_, fun w => ?_, fun p => ?_⟩
  · rw [honly]
    rfl
  · rw [State.frame_view_write, if_pos rfl, hframe, if_pos rfl]
  · rw [State.frame_view_write, if_neg hg, hframe, if_neg hg]
  · rw [State.view_view_write, hview]
  · rw [← hpool]
    rfl

/-- What a PREVIOUS cursor's leaving makes of its view's count, and when the view goes (R91). -/
theorem State.detachPrevious_of_view {s : State} {f : FrameId} {v : ViewId} {y : View} (hv : (s.frame f).view = some v)
    (hy : s.view v = some y) :
    s.detachPrevious f = if y.cursors - 1 = 0 ∧ ((s.frame f).state = .complete ∨ (s.frame f).state = .partialOnly) then
        ((s.setView v (some { y with cursors := y.cursors - 1 })).releaseView f .viewReleased).modifyFrame f Frame.stamped
      else s.setView v (some { y with cursors := y.cursors - 1 }) := by
  have hcount : s.modifyView v (fun x => { x with cursors := x.cursors - 1 }) = s.setView v (some { y with cursors := y.cursors - 1 }) := by
    rw [State.modifyView_eq, hy]
    rfl
  unfold State.detachPrevious
  rw [hv]
  dsimp only
  rw [hcount, State.view_setView_self, State.frame_setView]
  simp only [Option.any_some, Bool.and_eq_true, beq_iff_eq, FrameState.isSettled_iff]

/-! ### A cursor that leaves its attachment, views and cursors tied together (R88, R91, R142) -/

/-- The cursor with these fields is the last to read the view of frame `f`, whose pass has settled (R91). -/
def State.lastReader (s : State) (k : CursorFields) (f : FrameId) : Prop :=
  k.attachment = .previous f ∧ ((s.frame f).state = .complete ∨ (s.frame f).state = .partialOnly)
    ∧ ∃ v y, (s.frame f).view = some v ∧ s.view v = some y ∧ y.cursors = 1

theorem State.lastReader_unique {s : State} {k : CursorFields} {f g : FrameId} (hf : s.lastReader k f) (hg : s.lastReader k g) : f = g :=
  Attachment.previous.inj (hf.1.symm.trans hg.1)

/-- The frames of two views are two (R88). -/
theorem State.viewsOk.view_injective {s : State} (h : s.viewsOk) {f g : FrameId} {v : ViewId} (hf : (s.frame f).view = some v)
    (hg : (s.frame g).view = some v) : f = g := by
  obtain ⟨-, y, hy, rfl, -⟩ := h.1 f v hf
  obtain ⟨-, z, hz, rfl, -⟩ := h.1 g v hg
  rw [Option.mem_def] at hy hz
  rw [hy] at hz
  rw [Option.some.inj hz]

/-- An open PREVIOUS cursor reads a view that counts it; where it counts one alone, no other cursor reads it (R91). -/
theorem State.viewsOk.counted {s : State} (h : s.viewsOk) {c : CursorId} {k : CursorFields} {f : FrameId}
    (hk : (s.cursor c).slot = .opened k) (ha : k.attachment = .previous f) :
    ∃ v y, (s.frame f).view = some v ∧ s.view v = some y ∧ y.cursors ≠ 0
      ∧ (y.cursors = 1 → ∀ d, (s.cursor d).onPrevious f = true → d = c) := by
  have hon : (s.cursor c).onPrevious f = true := (Cursor.onPrevious_iff _ _).mpr ⟨k, hk, ha⟩
  obtain ⟨v, hv⟩ := Option.ne_none_iff_exists'.mp (h.2 c f hon)
  obtain ⟨-, y, hy, -, hcount⟩ := h.1 f v hv
  have hmem : ∀ d, (s.cursor d).onPrevious f = true → d ∈ allCursors.filter (fun c => (s.cursor c).onPrevious f) :=
    fun d hd => List.mem_filter.mpr ⟨mem_allCursors d, hd⟩
  refine ⟨v, y, hv, hy, fun hzero => ?_, fun hone d hd => ?_⟩
  · have hempty := List.length_eq_zero_iff.mp (hcount.symm.trans hzero)
    exact absurd (hempty ▸ hmem c hon) List.not_mem_nil
  · obtain ⟨e, he⟩ := List.length_eq_one_iff.mp (hcount.symm.trans hone)
    have hc := hmem c hon
    have hd := hmem d hd
    rw [he, List.mem_singleton] at hc hd
    rw [hd, hc]

/-- From `s` to `d` cursor `c`, open with fields `k`, has left its attachment and is CLOSED (R142). -/
structure State.LeavesAttachment (s d : State) (c : CursorId) (k : CursorFields) : Prop where
  only    : d = { s with
    cursors := d.cursors, frames := d.frames, views := d.views, pool := d.pool, holders := d.holders, seamHolder := d.seamHolder }
  cursors : d.cursors = (s.setCursor c { s.cursor c with slot := .closed }).cursors
  frame   : ∀ f, ¬ s.lastReader k f → d.frame f = (s.frame f).setRetain c false
  left    : ∀ f, s.lastReader k f → d.frame f = { (s.frame f).setRetain c false with
    view := none, stamp := next16 (s.frame f).stamp
    rowMap := (s.frame f).rowMap.map (fun e => { e with preserved := none, lost := false }) }
  view    : ∀ f v y, (s.frame f).view = some v → s.view v = some y → ¬ s.lastReader k f →
    d.view v = some { y with cursors := if k.attachment = .previous f then y.cursors - 1 else y.cursors }
  gone    : ∀ f v, s.lastReader k f → (s.frame f).view = some v → d.view v = none
    ∧ ∀ p h, s.poolRow p = some h → d.poolRow p = if h.view = v then none else some h

/-- The cursor out of its pin holder sets and CLOSED (R142). -/
def State.cursorShut (s : State) (c : CursorId) : State := (s.unpinCursor c).setCursor c { s.cursor c with slot := .closed }

theorem State.frame_cursorShut (s : State) (c : CursorId) (f : FrameId) : (s.cursorShut c).frame f = (s.frame f).setRetain c false :=
  s.frame_unpinCursor c f

theorem State.cursor_cursorShut (s : State) (c d : CursorId) :
    (s.cursorShut c).cursor d = if d = c then { s.cursor c with slot := .closed } else s.cursor d :=
  State.cursor_setCursor _ _ _ _

theorem State.detachCursor_of_opened {s : State} {c : CursorId} {k : CursorFields} (hk : (s.cursor c).slot = .opened k) :
    (∀ f, k.attachment = .previous f → s.detachCursor c = (s.cursorShut c).detachPrevious f)
      ∧ ((∀ f, k.attachment ≠ .previous f) → s.detachCursor c = s.cursorShut c) := by
  have hopen : (s.cursor c).openFields = some k := (Cursor.openFields_eq_some_iff _ _).mpr hk
  unfold State.detachCursor
  rw [hopen]
  refine ⟨fun f hf => by simp only [hf]; rfl, fun hnot => ?_⟩
  cases ha : k.attachment with
  | previous f => exact absurd ha (hnot f)
  | current f => simp only [ha]; rfl
  | group g => simp only [ha]; rfl

/-- The last reader's leaving releases the view (R91, R92). -/
theorem State.leaves_of_release {s : State} (h : s.viewsOk) {c : CursorId} {k : CursorFields} (hk : (s.cursor c).slot = .opened k)
    {f : FrameId} (hl : s.lastReader k f) {v : ViewId} (hv : (s.frame f).view = some v) (y : Option View) :
    s.LeavesAttachment ((((s.cursorShut c).setView v y).releaseView f .viewReleased).modifyFrame f Frame.stamped) c k := by
  have hshut : (s.cursorShut c).setView v y = { s with
    cursors := (s.cursorShut c).cursors, frames := (s.cursorShut c).frames, views := ((s.cursorShut c).setView v y).views } := rfl
  have hcursors : ((s.cursorShut c).setView v y).cursors = (s.setCursor c { s.cursor c with slot := .closed }).cursors := rfl
  have hframe : ∀ q, ((s.cursorShut c).setView v y).frame q = (s.frame q).setRetain c false := s.frame_cursorShut c
  have hview : ∀ w, ((s.cursorShut c).setView v y).view w = if w = v then y else s.view w := fun w => State.view_setView _ _ _ _
  have hpool : ∀ p, ((s.cursorShut c).setView v y).poolRow p = s.poolRow p := fun _ => rfl
  have hunread : ∀ d, (((s.cursorShut c).setView v y).cursor d).onPrevious f = false := fun d => by
    obtain ⟨v', y', hv', hy', -, honly⟩ := h.counted hk hl.1
    obtain ⟨w, z, hw, hz, hone⟩ := hl.2.2
    obtain rfl : v' = w := Option.some.inj (hv'.symm.trans hw)
    obtain rfl : y' = z := Option.some.inj (hy'.symm.trans hz)
    show ((s.cursorShut c).cursor d).onPrevious f = false
    rw [State.cursor_cursorShut]
    split
    · rfl
    · next hd => exact Bool.eq_false_iff.mpr fun hon => hd (honly hone d hon)
  generalize (s.cursorShut c).setView v y = u at hshut hcursors hframe hview hpool hunread ⊢
  obtain ⟨hronly, hrself, hrother, hrview, hrpool⟩ :=
    State.releaseView_unread (show (u.frame f).view = some v by rw [hframe]; exact hv) hunread .viewReleased
  generalize u.releaseView f .viewReleased = r at hronly hrself hrother hrview hrpool ⊢
  have hstamped : ∀ q, (r.modifyFrame f Frame.stamped).frame q = if q = f then (r.frame f).stamped else r.frame q := fun q => by
    rw [State.modifyFrame_eq, State.frame_setFrame]
  refine ⟨?_, ?_, fun q hq => ?_, fun q hq => ?_, fun q w z hw hz hq => ?_, fun q w hq hw => ?_⟩
  · show r.setFrame f _ = _
    rw [hronly, hshut]
    rfl
  · exact (congrArg State.cursors hronly).trans hcursors
  · have hqf : q ≠ f := fun hqf => hq (hqf ▸ hl)
    rw [hstamped, if_neg hqf, hrother q hqf, hframe]
  · obtain rfl := State.lastReader_unique hl hq
    rw [hstamped, if_pos rfl, hrself, hframe]
    rfl
  · have hqf : q ≠ f := fun hqf => hq (hqf ▸ hl)
    have hwv : w ≠ v := fun hwv => hqf (h.view_injective hw (hwv ▸ hv))
    have hqa : k.attachment ≠ .previous q := fun hqa => hqf (Attachment.previous.inj (hqa.symm.trans hl.1))
    show r.view w = _
    rw [hrview, if_neg hwv, hview, if_neg hwv, hz, if_neg hqa]
  · obtain rfl := State.lastReader_unique hl hq
    obtain rfl : v = w := Option.some.inj (hv.symm.trans hw)
    refine ⟨?_, fun p x hp => ?_⟩
    · show r.view v = none
      rw [hrview, if_pos rfl]
    · show r.poolRow p = _
      rw [hrpool, hpool, hp]
      simp only [Option.any_some, beq_iff_eq]

/-- Another's leaving counts one cursor less (R91). -/
theorem State.leaves_of_count {s : State} (h : s.viewsOk) {c : CursorId} {k : CursorFields} {f : FrameId}
    (hf : k.attachment = .previous f) (hl : ¬ s.lastReader k f) {v : ViewId} {y : View} (hv : (s.frame f).view = some v)
    (hy : s.view v = some y) :
    s.LeavesAttachment ((s.cursorShut c).setView v (some { y with cursors := y.cursors - 1 })) c k := by
  have hnot : ∀ q, ¬ s.lastReader k q := fun q hq => hl (Attachment.previous.inj (hq.1.symm.trans hf) ▸ hq)
  refine ⟨rfl, rfl, fun q _ => s.frame_cursorShut c q, fun q hq => absurd hq (hnot q), fun q w z hw hz _ => ?_,
    fun q w hq => absurd hq (hnot q)⟩
  rw [State.view_setView]
  by_cases hq : q = f
  · subst hq
    obtain rfl : v = w := Option.some.inj (hv.symm.trans hw)
    obtain rfl : y = z := Option.some.inj (hy.symm.trans hz)
    rw [if_pos rfl, if_pos hf]
  · have hwv : w ≠ v := fun hwv => hq (h.view_injective hw (hwv ▸ hv))
    have hqa : k.attachment ≠ .previous q := fun hqa => hq (Attachment.previous.inj (hqa.symm.trans hf))
    rw [if_neg hwv, if_neg hqa, ← hz]
    rfl

theorem State.detachCursor_leaves {s : State} (h : s.viewsOk) {c : CursorId} {k : CursorFields} (hk : (s.cursor c).slot = .opened k) :
    s.LeavesAttachment (s.detachCursor c) c k := by
  obtain ⟨hprevious, hother⟩ := State.detachCursor_of_opened hk
  by_cases hp : ∃ f, k.attachment = .previous f
  · obtain ⟨f, hf⟩ := hp
    obtain ⟨v, y, hv, hy, hpos, -⟩ := h.counted hk hf
    have huv : ((s.cursorShut c).frame f).view = some v := by rw [State.frame_cursorShut]; exact hv
    have hstate : ((s.cursorShut c).frame f).state = (s.frame f).state := by rw [State.frame_cursorShut]; rfl
    have hlast : s.lastReader k f ↔ y.cursors - 1 = 0 ∧ ((s.frame f).state = .complete ∨ (s.frame f).state = .partialOnly) := by
      constructor
      · rintro ⟨-, hsettled, v', y', hv', hy', hone⟩
        obtain rfl : v = v' := Option.some.inj (hv.symm.trans hv')
        obtain rfl : y = y' := Option.some.inj (hy.symm.trans hy')
        exact ⟨by omega, hsettled⟩
      · rintro ⟨hone, hsettled⟩
        exact ⟨hf, hsettled, v, y, hv, hy, by omega⟩
    rw [hprevious f hf, State.detachPrevious_of_view huv (show (s.cursorShut c).view v = some y from hy), hstate]
    by_cases hl : s.lastReader k f
    · rw [if_pos (hlast.mp hl)]
      exact State.leaves_of_release h hk hl hv _
    · rw [if_neg (hlast.not.mp hl)]
      exact State.leaves_of_count h hf hl hv hy
  · have hnot : ∀ f, ¬ s.lastReader k f := fun f hlast => hp ⟨f, hlast.1⟩
    rw [hother fun f hf => hp ⟨f, hf⟩]
    refine ⟨rfl, rfl, fun f _ => s.frame_cursorShut c f, fun f hf => absurd hf (hnot f), fun f v y hv hy _ => ?_,
      fun f v hf => absurd hf (hnot f)⟩
    rw [if_neg fun hf => hp ⟨f, hf⟩]
    exact hy

/-! ### A cursor that takes another attachment (R91, R141, R153) -/

/-- What an attaching cursor brings about: its record, its pins, and its view's count (R91, R140, R153). -/
structure State.TakesAttachment (d t : State) (c : CursorId) (k : CursorFields) : Prop where
  only    : t = { d with cursors := t.cursors, frames := t.frames, views := t.views }
  cursors : t.cursors = (d.setCursor c { slot := .opened k, job := none }).cursors
  frame   : ∀ f, t.frame f = if k.retain = true ∧ f ∈ d.attachedFrames k.attachment then (d.frame f).setRetain c true else d.frame f
  counted : ∀ f v, k.attachment = .previous f → (d.frame f).view = some v →
    t.view v = (d.view v).map (fun y => { y with cursors := y.cursors + 1 })
  kept    : ∀ v, (∀ f, k.attachment = .previous f → (d.frame f).view ≠ some v) → t.view v = d.view v

theorem State.attachPrevious_spec (s : State) (f : FrameId) : s.attachPrevious f = { s with views := (s.attachPrevious f).views }
    ∧ ∀ v, (s.attachPrevious f).view v =
      if (s.frame f).view = some v then (s.view v).map (fun y => { y with cursors := y.cursors + 1 }) else s.view v := by
  unfold State.attachPrevious
  cases hv : (s.frame f).view with
  | none => exact ⟨rfl, fun _ => rfl⟩
  | some w =>
    refine ⟨rfl, fun v => ?_⟩
    dsimp only
    rw [State.modifyView_eq, State.view_setView]
    by_cases hvw : v = w
    · rw [if_pos hvw, hvw, if_pos rfl]
    · rw [if_neg hvw, if_neg fun h => hvw (Option.some.inj h).symm]

/-- The view's part of an attaching (R91). -/
def State.attachedView (d : State) : Attachment → State
  | .previous f => d.attachPrevious f
  | .current _ => d
  | .group _ => d

theorem State.attachCursor_takes (d : State) (c : CursorId) (k : CursorFields) : d.TakesAttachment (d.attachCursor c k) c k := by
  have hview : d.attachedView k.attachment = { d with views := (d.attachedView k.attachment).views }
      ∧ (∀ f v, k.attachment = .previous f → (d.frame f).view = some v →
        (d.attachedView k.attachment).view v = (d.view v).map (fun y => { y with cursors := y.cursors + 1 }))
      ∧ ∀ v, (∀ f, k.attachment = .previous f → (d.frame f).view ≠ some v) → (d.attachedView k.attachment).view v = d.view v := by
    cases k.attachment with
    | current f => exact ⟨rfl, nofun, fun _ _ => rfl⟩
    | group g => exact ⟨rfl, nofun, fun _ _ => rfl⟩
    | previous f =>
      obtain ⟨honly, hspec⟩ := d.attachPrevious_spec f
      refine ⟨honly, fun q v hq hv => ?_, fun v hnot => ?_⟩
      · obtain rfl := Attachment.previous.inj hq
        exact (hspec v).trans (if_pos hv)
      · exact (hspec v).trans (if_neg (hnot f rfl))
  have hattach : d.attachCursor c k = (if k.retain then (d.attachedView k.attachment).pinCursor c k.attachment
      else d.attachedView k.attachment).setCursor c { slot := .opened k, job := none } := by
    unfold State.attachCursor State.attachedView
    cases k.attachment <;> rfl
  rw [hattach]
  obtain ⟨honly, hcounted, hkept⟩ := hview
  generalize d.attachedView k.attachment = e at honly hcounted hkept ⊢
  have hframe : ∀ f, e.frame f = d.frame f := fun f => by simp only [State.frame, congrArg State.frames honly]
  have hattached : e.attachedFrames k.attachment = d.attachedFrames k.attachment := by
    have hgroup : ∀ g, e.group g = d.group g := fun g => by simp only [State.group, congrArg State.groups honly]
    cases k.attachment with
    | current f => rfl
    | previous f => rfl
    | group g => simp only [State.attachedFrames, hgroup]
  obtain ⟨hponly, hpframe⟩ := e.pinCursor_spec c k.attachment
  rw [hattached] at hpframe
  cases hr : k.retain with
  | false =>
    rw [if_neg (by decide)]
    refine ⟨?_, ?_, fun f => ?_, hcounted, hkept⟩
    · rw [honly]
      rfl
    · rw [honly]
      rfl
    · rw [if_neg fun hp => Bool.false_ne_true (hr.symm.trans hp.1)]
      exact hframe f
  | true =>
    rw [if_pos rfl]
    generalize e.pinCursor c k.attachment = p at hponly hpframe ⊢
    have hpview : ∀ v, p.view v = e.view v := fun v => by simp only [State.view, congrArg State.views hponly]
    refine ⟨?_, ?_, fun f => ?_, fun f v hf hv => (hpview v).trans (hcounted f v hf hv), fun v hv => (hpview v).trans (hkept v hv)⟩
    · rw [hponly, honly]
      rfl
    · rw [hponly, honly]
      rfl
    · show p.frame f = _
      rw [hpframe, hframe]
      simp only [hr, true_and]

/-! ### A cursor that goes from one attachment to another (R91, R141, R153) -/

theorem Frame.setRetain_moved (x : Frame) (c : CursorId) (retain : Bool) (p : Prop) [Decidable p] :
    (if retain = true ∧ p then (x.setRetain c false).setRetain c true else x.setRetain c false) = x.setRetain c (retain && decide p) := by
  by_cases hp : retain = true ∧ p
  · rw [if_pos hp, Frame.setRetain_setRetain, hp.1, decide_eq_true hp.2]
    rfl
  · rw [if_neg hp]
    have hfalse : (retain && decide p) = false := by
      rw [Bool.and_eq_false_iff, decide_eq_false_iff_not, ← Bool.not_eq_true]
      exact not_and_or.mp hp
    rw [hfalse]

/-- From `s` to `t` cursor `c` has gone from the attachment of `k` to that of `new` (R141). -/
structure State.MovesCursor (s t : State) (c : CursorId) (k new : CursorFields) : Prop where
  only   : t = { s with
    cursors := t.cursors, frames := t.frames, views := t.views, pool := t.pool, holders := t.holders, seamHolder := t.seamHolder }
  self   : t.cursor c = { slot := .opened new, job := none }
  others : ∀ e, e ≠ c → t.cursor e = s.cursor e
  frame  : ∀ f, ¬ s.lastReader k f →
    t.frame f = (s.frame f).setRetain c (new.retain && decide (f ∈ s.attachedFrames new.attachment))
  left   : ∀ f, s.lastReader k f → t.frame f =
    { (s.frame f).setRetain c (new.retain && decide (f ∈ s.attachedFrames new.attachment)) with
      view := none, stamp := next16 (s.frame f).stamp
      rowMap := (s.frame f).rowMap.map (fun e => { e with preserved := none, lost := false }) }
  view   : ∀ f v y, (s.frame f).view = some v → s.view v = some y → ¬ s.lastReader k f → t.view v = some { y with
    cursors := if k.attachment = .previous f then y.cursors - 1
      else if new.attachment = .previous f then y.cursors + 1 else y.cursors }
  gone   : ∀ f v, s.lastReader k f → (s.frame f).view = some v → t.view v = none
    ∧ ∀ p h, s.poolRow p = some h → t.poolRow p = if h.view = v then none else some h

theorem State.detach_attach_moves {s : State} (h : s.viewsOk) {c : CursorId} {k new : CursorFields}
    (hk : (s.cursor c).slot = .opened k) (hne : new.attachment ≠ k.attachment) :
    s.MovesCursor ((s.detachCursor c).attachCursor c new) c k new := by
  have hleaves := State.detachCursor_leaves h hk
  generalize s.detachCursor c = d at hleaves ⊢
  have htakes := d.attachCursor_takes c new
  generalize d.attachCursor c new = t at htakes ⊢
  have hattached : d.attachedFrames new.attachment = s.attachedFrames new.attachment := by
    have hgroup : ∀ g, d.group g = s.group g := fun g => by simp only [State.group, congrArg State.groups hleaves.only]
    cases new.attachment with
    | current f => rfl
    | previous f => rfl
    | group g => simp only [State.attachedFrames, hgroup]
  have hdcursor : ∀ e, d.cursor e = (s.setCursor c { s.cursor c with slot := .closed }).cursor e := fun e => by
    simp only [State.cursor, hleaves.cursors]
  have htcursor : ∀ e, t.cursor e = (d.setCursor c { slot := .opened new, job := none }).cursor e := fun e => by
    simp only [State.cursor, htakes.cursors]
  have hpool : ∀ p, t.poolRow p = d.poolRow p := fun p => by simp only [State.poolRow, congrArg State.pool htakes.only]
  have hframe := htakes.frame
  rw [hattached] at hframe
  refine ⟨?_, ?_, fun e he => ?_, fun f hf => ?_, fun f hf => ?_, fun f v y hv hy hf => ?_, fun f v hf hv => ?_⟩
  · rw [htakes.only, hleaves.only]
  · rw [htcursor, State.cursor_setCursor_self]
  · rw [htcursor, State.cursor_setCursor, if_neg he, hdcursor, State.cursor_setCursor, if_neg he]
  · rw [hframe, hleaves.frame f hf, Frame.setRetain_moved]
  · rw [hframe, hleaves.left f hf, ← Frame.setRetain_moved]
    split <;> rfl
  · have hdview := hleaves.view f v y hv hy hf
    have hdframe : (d.frame f).view = some v := by rw [hleaves.frame f hf]; exact hv
    by_cases hw : new.attachment = .previous f
    · have hkf : k.attachment ≠ .previous f := fun hkf => hne (hw.trans hkf.symm)
      rw [htakes.counted f v hw hdframe, hdview, if_neg hkf, if_neg hkf, if_pos hw]
      rfl
    · have hother : ∀ q, new.attachment = .previous q → (d.frame q).view ≠ some v := fun q hq hqv => by
        by_cases hlast : s.lastReader k q
        · rw [hleaves.left q hlast] at hqv
          exact absurd hqv nofun
        · rw [hleaves.frame q hlast] at hqv
          exact hw (hq.trans (congrArg Attachment.previous (h.view_injective hqv hv)))
      rw [htakes.kept v hother, hdview, if_neg hw]
  · obtain ⟨hnone, hfreed⟩ := hleaves.gone f v hf hv
    refine ⟨?_, fun p x hp => (hpool p).trans (hfreed p x hp)⟩
    by_cases hq : ∃ q, new.attachment = .previous q ∧ (d.frame q).view = some v
    · obtain ⟨q, hq, hqv⟩ := hq
      rw [htakes.counted q v hq hqv, hnone]
      rfl
    · rw [htakes.kept v fun q hq' hqv => hq ⟨q, hq', hqv⟩, hnone]

end Sys2Proof.Machine
end

section
/-! Settles O48: what CURSOR_SET asks for and is granted (R140, R141; log 18), what it stores, and CURSOR_CLOSE (R142). -/

namespace Sys2Proof.Machine

/-! ### What CURSOR_SET asks for (R141) -/

/-- The attachment that the command names: the cursor's own where it gives none (R141). -/
def CursorFields.named (k : CursorFields) (a : CursorSetArgs) : Option Attachment :=
  match a.attachment with
  | none => some k.attachment
  | some (kind, number) => attachmentOf kind number

/-- A new attachment is taken whole where no window is given (R141). -/
def CursorFields.takesWhole (k : CursorFields) (a : CursorSetArgs) (w : Attachment) : Bool :=
  decide (w ≠ k.attachment ∧ a.window = none)

/-- The record asked for: fields not given keep their values, but for what a new attachment brings (R141). -/
def CursorFields.asked (k : CursorFields) (a : CursorSetArgs) (w : Attachment) (rows : Nat) : CursorFields where
  attachment := w
  position := a.position.getD
    (if k.takesWhole a w then (if 0 < a.step.getD k.step then 0 else rows - 1) else k.position)
  step := a.step.getD k.step
  base := if k.takesWhole a w then 0 else (a.window.map Prod.fst).getD k.base
  length := if k.takesWhole a w then rows else (a.window.map Prod.snd).getD k.length
  follow := (a.hints.map Prod.fst).getD k.follow
  retain := (a.hints.map Prod.snd).getD k.retain

/-- The step and the window's length are ones a cursor can hold (R140). -/
def CursorFields.askAllowed (k : CursorFields) (a : CursorSetArgs) (w : Attachment) (rows : Nat) : Prop :=
  (k.asked a w rows).step ≠ 0 ∧ -16 ≤ (k.asked a w rows).step ∧ (k.asked a w rows).step ≤ 16
    ∧ (k.takesWhole a w = true ∨ (k.asked a w rows).length ≠ 0)

/-- The window lies within the rows, and the position within the window (R140). -/
def CursorFields.fitsIn (k : CursorFields) (rows : Nat) : Prop :=
  k.base + k.length ≤ rows ∧ k.base ≤ k.position ∧ k.position < k.base + k.length

/-- The wish is for the record asked. -/
theorem CursorFields.wished_spec {k : CursorFields} {a : CursorSetArgs} {w : Attachment} (h : k.named a = some w) (rows : Nat) :
    (k.wished a).attachment = some w
      ∧ ((k.wished a).window = if k.takesWhole a w then none else some ((k.asked a w rows).base, (k.asked a w rows).length))
      ∧ (k.wished a).position = if a.position.isSome then a.position else if k.takesWhole a w then none else some k.position := by
  have hwished : (k.wished a).attachment = some w := h
  refine ⟨hwished, ?_, ?_⟩
  · show (if a.window.isSome then a.window
      else if decide ((k.wished a).attachment = some k.attachment) then some (k.base, k.length) else none) = _
    rw [hwished, CursorFields.asked, CursorFields.takesWhole]
    cases a.window with
    | some _ => simp
    | none => by_cases hw : w = k.attachment <;> simp [hw]
  · show (if a.position.isSome then a.position
      else if decide ((k.wished a).attachment = some k.attachment) = true ∨ a.window.isSome = true then some k.position else none) = _
    rw [hwished, CursorFields.takesWhole]
    cases a.window <;> by_cases hw : w = k.attachment <;> simp [hw]

theorem CursorFields.stepAndLengthAllowed_wished {k : CursorFields} {a : CursorSetArgs} {w : Attachment} (h : k.named a = some w)
    (rows : Nat) : stepAndLengthAllowed (k.wished a).step ((k.wished a).window.map Prod.snd) = true ↔ k.askAllowed a w rows := by
  have hstep : (k.wished a).step = (k.asked a w rows).step := rfl
  rw [CursorFields.askAllowed, stepAndLengthAllowed, Bool.and_eq_true, decide_eq_true_eq, hstep, (CursorFields.wished_spec h rows).2.1]
  cases k.takesWhole a w <;> simp [and_assoc]

/-- What CURSOR_SET is granted of what it asks (R140, R141). -/
theorem State.grantCursor_wished (s : State) {k : CursorFields} {a : CursorSetArgs} {w : Attachment} (h : k.named a = some w) :
    (¬ k.askAllowed a w (s.attachmentRows w) → s.grantCursor (k.wished a) = .error .badRequest)
      ∧ (k.askAllowed a w (s.attachmentRows w) →
        (∀ st, s.attachRefusal w = some st → s.grantCursor (k.wished a) = .error st)
          ∧ (s.attachRefusal w = none → ¬ (k.asked a w (s.attachmentRows w)).fitsIn (s.attachmentRows w) →
            s.grantCursor (k.wished a) = .error .badRequest)
          ∧ (s.attachRefusal w = none → (k.asked a w (s.attachmentRows w)).fitsIn (s.attachmentRows w) →
            s.grantCursor (k.wished a) = .ok (k.asked a w (s.attachmentRows w)))) := by
  obtain ⟨hattachment, hwindow, hposition⟩ := CursorFields.wished_spec h (s.attachmentRows w)
  have hallowed := CursorFields.stepAndLengthAllowed_wished h (s.attachmentRows w)
  have hbase : ((k.wished a).window.map Prod.fst).getD 0 = (k.asked a w (s.attachmentRows w)).base := by
    rw [hwindow, CursorFields.asked]
    cases k.takesWhole a w <;> rfl
  have hlength : ((k.wished a).window.map Prod.snd).getD (s.attachmentRows w) = (k.asked a w (s.attachmentRows w)).length := by
    rw [hwindow, CursorFields.asked]
    cases k.takesWhole a w <;> rfl
  have hat : (k.wished a).position.getD (defaultPosition (k.asked a w (s.attachmentRows w)).base
      (k.asked a w (s.attachmentRows w)).length (k.wished a).step) = (k.asked a w (s.attachmentRows w)).position := by
    have hstep : (k.wished a).step = a.step.getD k.step := rfl
    rw [hposition, hstep, CursorFields.asked]
    cases k.takesWhole a w <;> cases a.position <;> simp [defaultPosition]
  unfold State.grantCursor
  rw [hattachment]
  dsimp only
  rw [hbase, hlength, hat]
  refine ⟨fun hno => if_neg (hallowed.not.mpr hno), fun hyes => ?_⟩
  rw [if_pos (hallowed.mpr hyes)]
  refine ⟨fun st hst => by rw [hst], fun hnone hfits => ?_, fun hnone hfits => ?_⟩
  · rw [hnone]
    exact if_neg hfits
  · rw [hnone]
    exact if_pos hfits

/-! ### The commands at their port -/

theorem cursorClasses_eq (retain : Bool) : cursorClasses retain = if retain then [.read, .pin] else [.read] := rfl

section Commands
variable {s : State} {n : ClientId}

theorem exec_cursorSet {a : CursorSetArgs} (h : s.accepts n (if (a.hints.map Prod.snd).getD false then [.read, .pin] else [.read]))
    (tag : Nat) :
    ((s.cursor (cursorOf n a.cursor)).slot = .closed → exec (.cursorSet n tag a) s = .next (s.withAnswer n tag .noSuch []))
      ∧ (∀ k, (s.cursor (cursorOf n a.cursor)).slot = .lost k → exec (.cursorSet n tag a) s = .next (s.withAnswer n tag .lost []))
      ∧ ∀ k, (s.cursor (cursorOf n a.cursor)).slot = .opened k →
        (∀ st, s.grantCursor (k.wished a) = .error st → exec (.cursorSet n tag a) s = .next (s.withAnswer n tag st []))
          ∧ ∀ new, s.grantCursor (k.wished a) = .ok new → exec (.cursorSet n tag a) s
            = .next (((s.beginCommand n tag).storeCursor (cursorOf n a.cursor) k new).answer n .ok (beBytes 2 new.position)) := by
  have hcursor : ∀ c, (s.beginCommand n tag).cursor c = s.cursor c := fun _ => rfl
  have hgrant : ∀ w, (s.beginCommand n tag).grantCursor w = s.grantCursor w := fun _ => rfl
  have hexec : exec (.cursorSet n tag a) s = .next (s.request n tag (cursorClasses ((a.hints.map Prod.snd).getD false)) _) := rfl
  rw [hexec, cursorClasses_eq, State.request_of_accepts h]
  dsimp only
  rw [hcursor]
  refine ⟨fun hslot => ?_, fun k hslot => ?_, fun k hslot => ⟨fun st hst => ?_, fun new hnew => ?_⟩⟩
  · rw [hslot]
    rfl
  · rw [hslot]
    rfl
  · rw [hslot]
    dsimp only
    rw [hgrant, hst]
    rfl
  · rw [hslot]
    dsimp only
    rw [hgrant, hnew]

theorem exec_cursorClose (h : s.accepts n [.read]) (tag : Nat) (i : Fin 2) :
    ((s.cursor (cursorOf n i)).slot = .closed → exec (.cursorClose n tag i) s = .next (s.withAnswer n tag .noSuch []))
      ∧ ((s.cursor (cursorOf n i)).slot ≠ .closed →
        exec (.cursorClose n tag i) s = .next (((s.beginCommand n tag).detachCursor (cursorOf n i)).answer n .ok [])) := by
  have hcursor : ∀ c, (s.beginCommand n tag).cursor c = s.cursor c := fun _ => rfl
  have hexec : exec (.cursorClose n tag i) s = .next (s.request n tag [.read] _) := rfl
  rw [hexec, State.request_of_accepts h]
  dsimp only
  rw [hcursor]
  cases (s.cursor (cursorOf n i)).slot with
  | closed => exact ⟨fun _ => rfl, fun hne => absurd rfl hne⟩
  | opened k => exact ⟨nofun, fun _ => rfl⟩
  | lost k => exact ⟨nofun, fun _ => rfl⟩

end Commands

/-! ### What is refused (R140) -/

theorem State.grantCursor_unnamed (s : State) {k : CursorFields} {a : CursorSetArgs} (h : k.named a = none) :
    s.grantCursor (k.wished a) = .error .badRequest := by
  have hattachment : (k.wished a).attachment = none := h
  unfold State.grantCursor
  rw [hattachment]

theorem State.attachRefusal_frame (s : State) {w : Attachment} {f : FrameId} (h : w = .current f ∨ w = .previous f) :
    ((s.frame f).state = .free → s.attachRefusal w = some .noSuch)
      ∧ ((s.frame f).state = .faulted → s.attachRefusal w = some .faulted) := by
  rcases h with rfl | rfl
  · exact ⟨fun hfree => by rw [State.attachRefusal, hfree], fun hfaulted => by rw [State.attachRefusal, hfaulted]⟩
  · exact ⟨fun hfree => by rw [State.attachRefusal, hfree], fun hfaulted => by rw [State.attachRefusal, hfaulted]⟩

theorem State.attachRefusal_previous (s : State) {f : FrameId} (hfree : (s.frame f).state ≠ .free)
    (hfaulted : (s.frame f).state ≠ .faulted) (hview : (s.frame f).view = none) :
    s.attachRefusal (.previous f) = some .noView := by
  unfold State.attachRefusal
  dsimp only
  split
  · next h => exact absurd h hfree
  · next h => exact absurd h hfaulted
  · rw [hview]
    rfl

theorem State.attachRefusal_group (s : State) {g : GroupId} (h : (s.group g).state = .undefined) :
    s.attachRefusal (.group g) = some .noSuch := if_pos h

/-! ### What is stored (R141, R153) -/

theorem State.storeCursor_of_same (s : State) {c : CursorId} {k new : CursorFields} (h : new.attachment = k.attachment) :
    (new.retain = k.retain → s.storeCursor c k new = s.setCursor c { s.cursor c with slot := .opened new })
      ∧ (new.retain ≠ k.retain →
        s.storeCursor c k new
            = { s.setCursor c { s.cursor c with slot := .opened new } with frames := (s.storeCursor c k new).frames }
          ∧ ∀ f, (s.storeCursor c k new).frame f = if new.retain = false ∨ f ∈ s.attachedFrames k.attachment
            then (s.frame f).setRetain c new.retain else s.frame f) := by
  have hstored : s.storeCursor c k new = (if k.retain = new.retain then s
      else if new.retain then s.pinCursor c new.attachment else s.unpinCursor c).modifyCursor c
        (fun x => { x with slot := .opened new }) := if_neg fun hne => hne h.symm
  rw [hstored]
  refine ⟨fun hretain => by rw [if_pos hretain.symm]; rfl, fun hretain => ?_⟩
  rw [if_neg (Ne.symm hretain), h]
  cases hr : new.retain with
  | false =>
    rw [if_neg (by decide)]
    refine ⟨rfl, fun f => ?_⟩
    rw [if_pos (.inl rfl)]
    exact s.frame_unpinCursor c f
  | true =>
    obtain ⟨honly, hframe⟩ := s.pinCursor_spec c k.attachment
    rw [if_pos rfl]
    generalize s.pinCursor c k.attachment = p at honly hframe ⊢
    refine ⟨by rw [honly]; rfl, fun f => ?_⟩
    simp only [Bool.true_eq_false, false_or]
    exact hframe f

theorem State.storeCursor_of_other (s : State) {c : CursorId} {k new : CursorFields} (h : new.attachment ≠ k.attachment) :
    s.storeCursor c k new = (s.detachCursor c).attachCursor c new := if_pos (Ne.symm h)

/-! ### A cursor that closes (R91, R142, R153) -/

/-- In `t` cursor `c` is CLOSED and pins no frame; the explicit pins and the ports' tags are those of `s`. -/
structure State.ClosesCursor (s t : State) (c : CursorId) : Prop where
  slot : (t.cursor c).slot = .closed
  pins : ∀ f, (t.frame f).pins.retain[c] = false ∧ (t.frame f).pins.explicit = (s.frame f).pins.explicit
  tags : ∀ m, (t.port m).tag = (s.port m).tag

theorem State.cursorShut_closes (s : State) (c : CursorId) : s.ClosesCursor (s.cursorShut c) c := by
  refine ⟨?_, fun f => ?_, fun _ => rfl⟩
  · rw [State.cursor_cursorShut, if_pos rfl]
  · rw [State.frame_cursorShut]
    exact ⟨(getElem_setMember _ _ _ _).trans (if_pos rfl), rfl⟩

theorem State.ClosesCursor.releaseView {s t : State} {c : CursorId} (h : s.ClosesCursor t c) (f : FrameId) (cause : LostCause) :
    s.ClosesCursor (t.releaseView f cause) c := by
  have hreleases := t.releaseView_releases f cause
  generalize t.releaseView f cause = r at hreleases ⊢
  have hstays : t.viewLosers f c = false := by
    rw [State.viewLosers, Cursor.onPrevious, Cursor.openFields, h.slot]
    simp
  refine ⟨by rw [hreleases.kept c hstays]; exact h.slot, fun g => ?_, fun m => (hreleases.tags m).trans (h.tags m)⟩
  have hpins : (r.frame g).pins = ((t.frame g).withRetain (t.viewLosers f) false).pins := by
    by_cases hg : g = f
    · rw [hg, hreleases.frame]
    · rw [hreleases.others g hg]
  rw [hpins]
  exact ⟨((Frame.retain_withRetain _ _ _ _).trans (ite_eq_left_iff.mpr fun _ => (h.pins g).1)), (h.pins g).2⟩

theorem State.ClosesCursor.stamped {s t : State} {c : CursorId} (h : s.ClosesCursor t c) (f : FrameId) :
    s.ClosesCursor (t.modifyFrame f Frame.stamped) c := by
  refine ⟨h.slot, fun g => ?_, h.tags⟩
  rw [State.modifyFrame_eq, State.frame_setFrame]
  split
  · next hg => exact hg ▸ h.pins g
  · exact h.pins g

theorem State.ClosesCursor.detachPrevious {s t : State} {c : CursorId} (h : s.ClosesCursor t c) (f : FrameId) :
    s.ClosesCursor (t.detachPrevious f) c := by
  unfold State.detachPrevious
  split
  · exact h
  · next v _ =>
    have hcount : s.ClosesCursor (t.modifyView v (fun x => { x with cursors := x.cursors - 1 })) c := ⟨h.slot, h.pins, h.tags⟩
    dsimp only
    split
    · exact (hcount.releaseView f .viewReleased).stamped f
    · exact hcount

theorem State.detachCursor_closesCursor {s : State} {c : CursorId} {k : CursorFields} (hk : (s.cursor c).slot = .opened k) :
    s.ClosesCursor (s.detachCursor c) c := by
  obtain ⟨hprevious, hother⟩ := State.detachCursor_of_opened hk
  cases ha : k.attachment with
  | previous f => exact hprevious f ha ▸ (s.cursorShut_closes c).detachPrevious f
  | current f => exact hother (fun q => ha ▸ nofun) ▸ s.cursorShut_closes c
  | group g => exact hother (fun q => ha ▸ nofun) ▸ s.cursorShut_closes c

/-- The view that a PREVIOUS cursor has left, and the stamp of its frame (R91). -/
theorem State.view_detachPrevious {s : State} {f : FrameId} {v : ViewId} {y : View} (hv : (s.frame f).view = some v)
    (hy : s.view v = some y) :
    (s.detachPrevious f).view v
        = (if y.cursors - 1 = 0 ∧ ((s.frame f).state = .complete ∨ (s.frame f).state = .partialOnly) then none
          else some { y with cursors := y.cursors - 1 })
      ∧ ((s.detachPrevious f).frame f).stamp
        = if y.cursors - 1 = 0 ∧ ((s.frame f).state = .complete ∨ (s.frame f).state = .partialOnly) then next16 (s.frame f).stamp
          else (s.frame f).stamp := by
  rw [State.detachPrevious_of_view hv hy]
  split
  · have hreleases := (s.setView v (some { y with cursors := y.cursors - 1 })).releaseView_releases f .viewReleased
    generalize (s.setView v (some { y with cursors := y.cursors - 1 })).releaseView f .viewReleased = r at hreleases ⊢
    refine ⟨(hreleases.views v).trans (if_pos hv), ?_⟩
    rw [State.modifyFrame_eq, State.frame_setFrame_self, hreleases.frame]
    rfl
  · exact ⟨State.view_setView_self _ _ _, rfl⟩

/-! ### CURSOR_SET and CURSOR_CLOSE (R141, R142) -/

theorem exec_cursorClose_lost {s : State} {n : ClientId} (h : s.accepts n [.read]) (tag : Nat) (i : Fin 2) {y : CursorFields}
    (hy : (s.cursor (cursorOf n i)).slot = .lost y) : exec (.cursorClose n tag i) s
      = .next ((s.setCursor (cursorOf n i) { s.cursor (cursorOf n i) with slot := .closed }).withAnswer n tag .ok []) := by
  have hfields : ((s.beginCommand n tag).cursor (cursorOf n i)).openFields = none := by
    show (s.cursor (cursorOf n i)).openFields = none
    rw [Cursor.openFields, hy]
  rw [(exec_cursorClose h tag i).2 (hy ▸ nofun), State.detachCursor, hfields]
  rfl

theorem exec_cursorClose_opened {s : State} {n : ClientId} (h : s.accepts n [.read]) (tag : Nat) (i : Fin 2) {y : CursorFields}
    (hy : (s.cursor (cursorOf n i)).slot = .opened y) :
    ∃ t, exec (.cursorClose n tag i) s = .next t ∧ (t.cursor (cursorOf n i)).slot = .closed
      ∧ (∀ f, (t.frame f).pins.retain[cursorOf n i] = false ∧ (t.frame f).pins.explicit = (s.frame f).pins.explicit)
      ∧ (t.port n).state = .done ∧ (t.port n).buffer = some { status := .ok, tag := tag, body := [] }
      ∧ ((∀ f, y.attachment ≠ .previous f) → t.views = s.views ∧ ∀ f, (t.frame f).stamp = (s.frame f).stamp)
      ∧ ∀ f v z, y.attachment = .previous f → (s.frame f).view = some v → s.view v = some z →
          t.view v = (if z.cursors - 1 = 0 ∧ ((s.frame f).state = .complete ∨ (s.frame f).state = .partialOnly)
            then none else some { z with cursors := z.cursors - 1 })
          ∧ (t.frame f).stamp = (if z.cursors - 1 = 0 ∧ ((s.frame f).state = .complete ∨ (s.frame f).state = .partialOnly)
            then next16 (s.frame f).stamp else (s.frame f).stamp) := by
  have hyu : ((s.beginCommand n tag).cursor (cursorOf n i)).slot = .opened y := hy
  have hcloses := State.detachCursor_closesCursor hyu
  obtain ⟨hprevious, hother⟩ := State.detachCursor_of_opened hyu
  have htag : (((s.beginCommand n tag).detachCursor (cursorOf n i)).port n).tag = tag := by
    rw [hcloses.tags, State.beginCommand, State.port_setPort_self]
  refine ⟨_, (exec_cursorClose h tag i).2 (hy ▸ nofun), hcloses.slot, hcloses.pins, ?_, ?_, fun hnot => ?_, fun f v z hf hv hz => ?_⟩
  · rw [State.answer, State.port_setPort_self]
  · rw [State.answer, State.port_setPort_self, htag]
  · rw [hother hnot]
    refine ⟨rfl, fun f => ?_⟩
    exact (congrArg Frame.stamp ((s.beginCommand n tag).frame_cursorShut (cursorOf n i) f) :)
  · have hframe := (s.beginCommand n tag).frame_cursorShut (cursorOf n i) f
    have hleft := State.view_detachPrevious (s := (s.beginCommand n tag).cursorShut (cursorOf n i)) (f := f) (v := v) (y := z)
      (by rw [hframe]; exact hv) hz
    rw [hframe] at hleft
    rw [hprevious f hf]
    exact hleft

/-- The state in which CURSOR_SET has stored the new record alone. -/
theorem State.storeCursor_answer_same (s : State) (n : ClientId) (tag : Nat) (c : CursorId) (body : List Byte) {k new : CursorFields}
    (h : new.attachment = k.attachment) :
    (new.retain = k.retain → ((s.beginCommand n tag).storeCursor c k new).answer n .ok body
        = (s.setCursor c { s.cursor c with slot := .opened new }).withAnswer n tag .ok body)
      ∧ (new.retain ≠ k.retain → ∃ t, ((s.beginCommand n tag).storeCursor c k new).answer n .ok body = t
        ∧ t = { (s.setCursor c { s.cursor c with slot := .opened new }).withAnswer n tag .ok body with frames := t.frames }
        ∧ ∀ f, t.frame f = { s.frame f with pins := if new.retain = false ∨ f ∈ s.attachedFrames k.attachment
          then { (s.frame f).pins with retain := setMember (s.frame f).pins.retain c new.retain } else (s.frame f).pins }) := by
  obtain ⟨hkept, hchanged⟩ := (s.beginCommand n tag).storeCursor_of_same (c := c) h
  refine ⟨fun hretain => by rw [hkept hretain]; rfl, fun hretain => ⟨_, rfl, ?_⟩⟩
  obtain ⟨honly, hframe⟩ := hchanged hretain
  have hattached : (s.beginCommand n tag).attachedFrames k.attachment = s.attachedFrames k.attachment := by
    cases k.attachment <;> rfl
  rw [hattached] at hframe
  generalize (s.beginCommand n tag).storeCursor c k new = t at honly hframe ⊢
  exact ⟨by rw [honly]; rfl, fun f => (hframe f).trans (by split <;> rfl)⟩

/-- The state in which CURSOR_SET has moved the cursor to another attachment. -/
theorem State.storeCursor_answer_other {s : State} (h : s.viewsOk) (n : ClientId) (tag : Nat) {c : CursorId} (body : List Byte)
    {k new : CursorFields} (hk : (s.cursor c).slot = .opened k) (hne : new.attachment ≠ k.attachment) :
    ∃ t, ((s.beginCommand n tag).storeCursor c k new).answer n .ok body = t
      ∧ t = { s with
          cursors := t.cursors, frames := t.frames, views := t.views, pool := t.pool, ports := t.ports
          holders := t.holders, seamHolder := t.seamHolder }
      ∧ t.cursor c = { slot := .opened new, job := none } ∧ (∀ d, d ≠ c → t.cursor d = s.cursor d)
      ∧ t.ports = (s.withAnswer n tag .ok body).ports
      ∧ (∀ f, let pins : PinSet := { (s.frame f).pins with
              retain := setMember (s.frame f).pins.retain c (new.retain && decide (f ∈ s.attachedFrames new.attachment)) }
          (¬ s.lastReader k f → t.frame f = { s.frame f with pins := pins })
          ∧ (s.lastReader k f → t.frame f = { s.frame f with
              pins := pins, view := none, stamp := next16 (s.frame f).stamp
              rowMap := (s.frame f).rowMap.map (fun e => { e with preserved := none, lost := false }) }))
      ∧ ∀ f v y, (s.frame f).view = some v → s.view v = some y →
          (s.lastReader k f → t.view v = none ∧ ∀ p x, s.poolRow p = some x → t.poolRow p = if x.view = v then none else some x)
          ∧ (¬ s.lastReader k f → t.view v = some { y with
              cursors := if k.attachment = .previous f then y.cursors - 1
                else if new.attachment = .previous f then y.cursors + 1 else y.cursors }) := by
  have hattached : (s.beginCommand n tag).attachedFrames new.attachment = s.attachedFrames new.attachment := by
    cases new.attachment <;> rfl
  have hmoves : (s.beginCommand n tag).MovesCursor ((s.beginCommand n tag).storeCursor c k new) c k new := by
    rw [State.storeCursor_of_other _ hne]
    exact State.detach_attach_moves (s := s.beginCommand n tag) h hk hne
  generalize (s.beginCommand n tag).storeCursor c k new = m at hmoves ⊢
  obtain ⟨honly, hself, hothers, hframe, hleft, hview, hgone⟩ := hmoves
  rw [hattached] at hframe hleft
  have hport : m.port n = (s.beginCommand n tag).port n := by simp only [State.port, congrArg State.ports honly]
  have hports : (m.answer n .ok body).ports = (s.withAnswer n tag .ok body).ports := by
    simp only [State.withAnswer, State.answer, State.setPort, hport, congrArg State.ports honly]
  refine ⟨_, rfl, ?_, hself, hothers, hports, fun f => ⟨hframe f, hleft f⟩, fun f v y hv hy =>
    ⟨fun hlast => hgone f v hlast hv, hview f v y hv hy⟩⟩
  rw [honly]
  rfl

/-- Settles O48: the grant decides between the refusals and the new record, and the record's attachment between what storing it
does: a cursor that keeps its attachment moves its pins where RETAIN changes, another leaves and attaches. -/
theorem cursorSetAndCloseChangeTheCursor : Obligations.CursorSetAndCloseChangeTheCursor := by
  unfold Obligations.CursorSetAndCloseChangeTheCursor
  refine ⟨fun n tag a s h => ?_, fun n tag i s h => ⟨(exec_cursorClose h tag i).1, fun y => exec_cursorClose_lost h tag i,
    fun y => exec_cursorClose_opened h tag i⟩⟩
  obtain ⟨hclosed, hlost, hopened⟩ := exec_cursorSet h tag
  refine ⟨hclosed, hlost, fun k hk => ?_⟩
  obtain ⟨hrefused, hgranted⟩ := hopened k hk
  refine ⟨fun hnone => hrefused _ (s.grantCursor_unnamed hnone), fun w hw => ?_⟩
  obtain ⟨hbad, hallowed⟩ := s.grantCursor_wished hw
  refine ⟨fun hno => hrefused _ (hbad hno), fun hyes f hf hfree => hrefused _ ((hallowed hyes).1 _ ((s.attachRefusal_frame hf).1 hfree)),
    fun hyes f hf hfaulted => hrefused _ ((hallowed hyes).1 _ ((s.attachRefusal_frame hf).2 hfaulted)),
    fun hyes f hf hfree hfaulted hview => hrefused _ ((hallowed hyes).1 _ (hf ▸ s.attachRefusal_previous hfree hfaulted hview)),
    fun hyes g hg hundefined => hrefused _ ((hallowed hyes).1 _ (hg ▸ s.attachRefusal_group hundefined)),
    fun hyes hnone hno => hrefused _ ((hallowed hyes).2.1 hnone hno), fun hyes hnone hfits hsame hretain => ?_,
    fun hyes hnone hfits hsame hretain => ?_, fun hyes hnone hfits hne hviews => ?_⟩
  · exact (hgranted _ ((hallowed hyes).2.2 hnone hfits)).trans
      (congrArg _ ((s.storeCursor_answer_same n tag (cursorOf n a.cursor) _ hsame).1 hretain))
  · obtain ⟨t, ht, hspec⟩ := (s.storeCursor_answer_same n tag (cursorOf n a.cursor) _ hsame).2 hretain
    exact ⟨t, (hgranted _ ((hallowed hyes).2.2 hnone hfits)).trans (congrArg _ ht), hspec⟩
  · obtain ⟨t, ht, hspec⟩ := State.storeCursor_answer_other (new := k.asked a w (s.attachmentRows w)) hviews n tag _ hk hne
    exact ⟨t, (hgranted _ ((hallowed hyes).2.2 hnone hfits)).trans (congrArg _ ht), hspec⟩

end Sys2Proof.Machine
end
